-- ==== Sys2Proof/Word.lean ====
section
/-! DEFINITION. The word types of the PD object codec (00_scope.md R12, 30_encoding.md R110): a PDO or an RDO is
32 bits, a register byte is 8 bits, an NTC value is 16 bits, a register address is 8 bits (20_memory.md R76). -/

namespace Sys2Proof

/-- A PDO or an RDO: `u32` (30_encoding.md R110). -/
abbrev Word := BitVec 32

/-- A register byte: `u8`, or `s8` where a rule reads it signed (00_scope.md R12). -/
abbrev Byte := BitVec 8

/-- An NTC resistance as the device holds it: `u16` (10_state.md R48). -/
abbrev Half := BitVec 16

/-- An address of the device register space: 8 bits (20_memory.md R76). -/
abbrev RegAddr := BitVec 8

end Sys2Proof
end

