-- ==== Sys2Proof/Config.lean ====
section
/-! DEFINITION. What is fixed for the machine and what is left open (00_scope.md R10, 10_state.md R55): the sizes the
source states, the types of the named parameters, and the environment's free answers. The parameters' default values are
in Sys2Proof/Machine/Parameters.lean. -/

namespace Sys2Proof

/-- `PDO_SLOTS`: advertised PDO slots, numbered 1..7 (00_scope.md R10). -/
abbrev Config.pdoSlots : Nat := 7

/-- `TABLE_BYTES`: the source PDO table in bytes, 7 words of 4 (00_scope.md R10, 20_memory.md R78). -/
abbrev Config.tableBytes : Nat := 28

/-- Where a field of a PDO or RDO word stands: bits `hi` down to `lo`, inclusive (00_scope.md R11). -/
structure FieldPos where
  hi : Nat
  lo : Nat
  deriving DecidableEq, Repr

/-- The positions of the Fixed Supply PDO's fields (30_encoding.md R114). -/
structure FixedPdoLayout where
  dualRolePower : FieldPos
  usbSuspendSupported : FieldPos
  unconstrainedPower : FieldPos
  usbCommCapable : FieldPos
  dualRoleData : FieldPos
  unchunkedExtMsg : FieldPos
  eprCapable : FieldPos
  peakCurrent : FieldPos
  voltage : FieldPos
  maxCurrent : FieldPos
  deriving DecidableEq, Repr

/-- The positions of the Battery PDO's fields (30_encoding.md R115). -/
structure BatteryPdoLayout where
  maxVoltage : FieldPos
  minVoltage : FieldPos
  maxPower : FieldPos
  deriving DecidableEq, Repr

/-- The positions of the Variable Supply PDO's fields (30_encoding.md R116). -/
structure VariablePdoLayout where
  maxVoltage : FieldPos
  minVoltage : FieldPos
  maxCurrent : FieldPos
  deriving DecidableEq, Repr

/-- The positions of the Augmented PPS PDO's fields (30_encoding.md R117). -/
structure PpsPdoLayout where
  powerLimited : FieldPos
  maxVoltage : FieldPos
  minVoltage : FieldPos
  maxCurrent : FieldPos
  deriving DecidableEq, Repr

/-- The positions of the Augmented EPR-AVS PDO's fields (30_encoding.md R118). -/
structure AvsPdoLayout where
  peakCurrent : FieldPos
  maxVoltage : FieldPos
  minVoltage : FieldPos
  pdp : FieldPos
  deriving DecidableEq, Repr

/-- The positions of the RDO common header's fields (30_encoding.md R122). -/
structure HdrLayout where
  objPos : FieldPos
  giveBack : FieldPos
  capMismatch : FieldPos
  usbCommCapable : FieldPos
  noUsbSuspend : FieldPos
  unchunkedExtMsg : FieldPos
  eprCapable : FieldPos
  deriving DecidableEq, Repr

/-- The positions of the two operating-point fields of an RDO (30_encoding.md R123 to R126): the operating value and
the maximum value of a Fixed or Battery request, the output voltage and the operating current of a PPS or AVS one. -/
structure PointLayout where
  first : FieldPos
  second : FieldPos
  deriving DecidableEq, Repr

/-- The parameter `LAYOUT` (00_scope.md R10, 30_encoding.md's introduction): every bit position and every tag value of
a PDO or RDO word, in one table. -/
structure Layout where
  typeTag : FieldPos
  powerRange : FieldPos
  tagFixed : BitVec 2
  tagBattery : BitVec 2
  tagVariable : BitVec 2
  tagAugmented : BitVec 2
  rangePps : BitVec 2
  rangeEprAvs : BitVec 2
  fixedPdo : FixedPdoLayout
  batteryPdo : BatteryPdoLayout
  variablePdo : VariablePdoLayout
  ppsPdo : PpsPdoLayout
  avsPdo : AvsPdoLayout
  hdr : HdrLayout
  fixedRdo : PointLayout
  batteryRdo : PointLayout
  ppsRdo : PointLayout
  avsRdo : PointLayout
  deriving DecidableEq, Repr

/-- The named parameters of the block (00_scope.md R10; 92_eei_decisions.md D1, D14, D15, D19, D25). They are configuration,
not block state (10_state.md R55): no operation writes them. -/
structure Params where
  /-- `LAYOUT`: the position of every PDO and RDO field and the tag values. -/
  layout : Layout
  /-- `DEV_ADDR`: the device's 7-bit bus address. -/
  devAddr : BitVec 7
  /-- `SHUNT_DEFAULT`: whether the default current-sense shunt is fitted. -/
  shuntDefault : Bool
  /-- `MASK_INIT`: the interrupt mask INIT writes. -/
  maskInit : Byte
  /-- `OCP_INIT`: the raw over-current threshold INIT writes. -/
  ocpInit : Byte
  /-- `OTP_INIT`: the raw over-temperature threshold INIT writes. -/
  otpInit : Byte
  /-- `DR_INIT`: the raw derating threshold INIT writes. -/
  drInit : Byte
  deriving DecidableEq, Repr

/-- One draw of the environment: all that one transaction, one pin poll or one unscaled current may take from outside
the block. Every field is unconstrained (20_memory.md R80, R84; 93_implementation_defined.md I8 to I12, I17, I18). -/
structure Draw where
  /-- The transport reports success, or the device acknowledges the probe (20_memory.md R80, R81). -/
  ok : Bool
  /-- The bytes the device returns for registers whose value the model does not know (20_memory.md R83, R84). -/
  bytes : Vector Byte Config.tableBytes
  /-- What a failed snapshot read leaves: `none` keeps the previous cell, `some b` is any byte (43_status_interrupt.md
  R320, 44_measure_threshold.md R350 to R352). -/
  snap : Option Byte
  /-- Whether a failed request write leaves the new word in slot 0 (42_pdo_rdo_registers.md R285, R286). -/
  sent : Bool
  /-- The physical current in mA where the scale is not known (44_measure_threshold.md R351, R354). -/
  amount : Nat
  /-- The level of the interrupt pin, true = interrupt signalled (43_status_interrupt.md R325). -/
  level : Bool
  deriving DecidableEq, Repr, Inhabited

/-- The environment's answer to the n-th draw where the host has supplied none: a free value, nothing constrains it
(log 4). -/
opaque Config.oracle : Nat → Draw

end Sys2Proof
end

