-- ==== Sys2Proof/Machine/Bits.lean ====
section
/-! DEFINITION. Bit fields and byte order, each decided once (00_scope.md R11, R13; 20_memory.md R70 to R73). -/

namespace Sys2Proof.Machine

/-- `w[hi:lo]` as an unsigned bit-vector of the field's width (00_scope.md R11). -/
def field {n : Nat} (w : Word) (p : FieldPos) : BitVec n := w.extractLsb' p.lo n

/-- `v[i]` as one bit (00_scope.md R11). -/
def bitOf (v : Byte) (i : Nat) : BitVec 1 := v.extractLsb' i 1

/-- `pack(v@[hi:lo])`: the word that holds `v` at the field's place and 0 elsewhere (00_scope.md R13). -/
def place {n : Nat} (v : BitVec n) (p : FieldPos) : Word := v.setWidth 32 <<< p.lo

/-- The bits of a word that a field of `n` bits covers (00_scope.md R11). -/
def fieldMask (p : FieldPos) (n : Nat) : Word := place (BitVec.allOnes n) p

/-- `le32(b0, b1, b2, b3)` (00_scope.md R13, 20_memory.md R71). -/
def le32 (b0 b1 b2 b3 : Byte) : Word := b3 ++ b2 ++ b1 ++ b0

/-- `le16(b0, b1)` (00_scope.md R13, 20_memory.md R73). -/
def le16 (b0 b1 : Byte) : Half := b1 ++ b0

/-- `bytes_le(w, 4)`: the wire bytes of a word (00_scope.md R13, 20_memory.md R72). -/
def bytesLe32 (w : Word) : List Byte :=
  [w.extractLsb' 0 8, w.extractLsb' 8 8, w.extractLsb' 16 8, w.extractLsb' 24 8]

/-- `bytes_le(v, 2)`: the wire bytes of an NTC value (00_scope.md R13, 20_memory.md R73). -/
def bytesLe16 (v : Half) : List Byte := [v.extractLsb' 0 8, v.extractLsb' 8 8]

/-- `toInt` of an `s8`: two's complement, -128..127 (00_scope.md R12; PRESUMED by the spec, log 11). -/
def signedByte (b : Byte) : Int := b.toInt

end Sys2Proof.Machine
end

