-- ==== Sys2Proof/Syntax.lean ====
section
/-! DEFINITION. The operations of the codec as typed terms: the operand domains of 30_encoding.md R138, the decoded PDO
of 40_pdo_decoder.md R199, the request of 41_rdo_codec.md R240, the caller's call (30_encoding.md R135, R136), and one
constructor of `Instr` per row of spec/opcode_table.json. -/

namespace Sys2Proof

/-- An RDO object position: 4 bits, never 0, so that position 0 cannot be expressed (30_encoding.md R138,
41_rdo_codec.md R245, 90_conflicts.md C1). -/
structure ObjPos where
  bits : BitVec 4
  notZero : (bits == 0#4) = false
  deriving DecidableEq, Repr

/-- The common header of every RDO (41_rdo_codec.md R240). -/
structure Hdr where
  objPos : ObjPos
  giveBack : BitVec 1
  capMismatch : BitVec 1
  usbCommCapable : BitVec 1
  noUsbSuspend : BitVec 1
  unchunkedExtMsg : BitVec 1
  eprCapable : BitVec 1
  deriving DecidableEq, Repr

/-- The payload of a Fixed RDO, in units of 10 mA (30_encoding.md R121, R123). -/
structure FixedRdo where
  hdr : Hdr
  opCurrent : BitVec 10
  maxOpCurrent : BitVec 10
  deriving DecidableEq, Repr

/-- The payload of a Battery RDO, in units of 250 mW (30_encoding.md R121, R124). -/
structure BatteryRdo where
  hdr : Hdr
  opPower : BitVec 10
  maxOpPower : BitVec 10
  deriving DecidableEq, Repr

/-- The payload of a PPS RDO: 20 mV and 50 mA (30_encoding.md R121, R125). -/
structure PpsRdo where
  hdr : Hdr
  outVoltage : BitVec 12
  opCurrent : BitVec 7
  deriving DecidableEq, Repr

/-- The payload of an AVS RDO: 25 mV and 50 mA (30_encoding.md R121, R126). -/
structure AvsRdo where
  hdr : Hdr
  outVoltage : BitVec 12
  opCurrent : BitVec 7
  deriving DecidableEq, Repr

/-- `RdoKind` (30_encoding.md R138). -/
inductive RdoKind where
  | fixed
  | battery
  | pps
  | avs
  deriving DecidableEq, Repr

/-- A request: the discriminant and its payload (41_rdo_codec.md R240, 00_scope.md R14). -/
inductive Rdo where
  | fixed (r : FixedRdo)
  | battery (r : BatteryRdo)
  | pps (r : PpsRdo)
  | avs (r : AvsRdo)
  deriving DecidableEq, Repr

/-- The payload of a Fixed Supply PDO (40_pdo_decoder.md R199). -/
structure FixedPdo where
  dualRolePower : BitVec 1
  usbSuspendSupported : BitVec 1
  unconstrainedPower : BitVec 1
  usbCommCapable : BitVec 1
  dualRoleData : BitVec 1
  unchunkedExtMsg : BitVec 1
  eprCapable : BitVec 1
  peakCurrent : BitVec 2
  voltage : BitVec 10
  maxCurrent : BitVec 10
  deriving DecidableEq, Repr

/-- The payload of a Battery PDO (40_pdo_decoder.md R199). -/
structure BatteryPdo where
  maxVoltage : BitVec 10
  minVoltage : BitVec 10
  maxPower : BitVec 10
  deriving DecidableEq, Repr

/-- The payload of a Variable Supply PDO (40_pdo_decoder.md R199). -/
structure VariablePdo where
  maxVoltage : BitVec 10
  minVoltage : BitVec 10
  maxCurrent : BitVec 10
  deriving DecidableEq, Repr

/-- The payload of an Augmented PPS PDO (40_pdo_decoder.md R199). -/
structure PpsPdo where
  powerLimited : BitVec 1
  maxVoltage : BitVec 8
  minVoltage : BitVec 8
  maxCurrent : BitVec 7
  deriving DecidableEq, Repr

/-- The payload of an Augmented EPR-AVS PDO (40_pdo_decoder.md R199). -/
structure AvsPdo where
  peakCurrent : BitVec 2
  maxVoltage : BitVec 9
  minVoltage : BitVec 8
  pdp : BitVec 8
  deriving DecidableEq, Repr

/-- The variant a PDO word decodes to (30_encoding.md R113). -/
inductive PdoVariant where
  | fixed
  | battery
  | variableSupply
  | pps
  | eprAvs
  | opaquePdo
  deriving DecidableEq, Repr

/-- A decoded PDO: the discriminant and its payload (40_pdo_decoder.md R199). -/
inductive Pdo where
  | fixed (p : FixedPdo)
  | battery (p : BatteryPdo)
  | variableSupply (p : VariablePdo)
  | pps (p : PpsPdo)
  | eprAvs (p : AvsPdo)
  | opaquePdo (raw : Word)
  deriving DecidableEq, Repr

/-- The fields of a status byte (10_state.md R38, 43_status_interrupt.md R322); 1 = condition present. -/
structure StatusFlags where
  derating : BitVec 1
  overTemperature : BitVec 1
  overCurrent : BitVec 1
  overVoltage : BitVec 1
  reserved : BitVec 1
  newPdo : BitVec 1
  success : BitVec 1
  ready : BitVec 1
  deriving DecidableEq, Repr

/-- The 32 mnemonics of 30_encoding.md R135: what the caller names. -/
inductive OpName where
  | decodePdo
  | encodeRdo
  | decodeRdo
  | checkRdo
  | decodeStatus
  | refreshPdos
  | getPdoCnt
  | getPdo
  | getLastRdo
  | writeRdo
  | resetRdo
  | readStatus
  | getStatus
  | setMask
  | getMask
  | pollInt
  | readVoltage
  | readCurrent
  | readTemp
  | getLastVoltage
  | getLastCurrent
  | getLastTemp
  | setOcp
  | getOcp
  | setOtp
  | getOtp
  | setDr
  | getDr
  | setNtc
  | getNtc
  | isPresent
  | init
  deriving DecidableEq, Repr

/-- A call as the caller issues it: "the caller names the operation and passes its operands" (30_encoding.md R136).
Operands are numbers, in the order of R135 and R138, a record as its fields in the record's order (log 6). -/
structure Call where
  op : OpName
  args : List Nat
  deriving DecidableEq, Repr

/-- Why a call is no operation at all: its operands are not in the domain of 30_encoding.md R138 (log 8). -/
inductive CallError where
  /-- An operand is missing. -/
  | missingOperand
  /-- There are more operands than the operation has. -/
  | extraOperand
  /-- An operand does not fit the width, or the choice, that R138 gives it. -/
  | outsideDomain (x : Nat)
  /-- A request names object position 0 (30_encoding.md R129, R138). -/
  | positionZero
  deriving DecidableEq, Repr

/-- The operation forms: one constructor per row of spec/opcode_table.json, in the table's order. -/
inductive Instr where
  -- DECODE_PDO w (40_pdo_decoder.md R200 to R206)
  | decodePdoFixed (w : Word)
  | decodePdoBattery (w : Word)
  | decodePdoVariable (w : Word)
  | decodePdoPps (w : Word)
  | decodePdoEprAvs (w : Word)
  | decodePdoOpaque (w : Word)
  -- ENCODE_RDO r (41_rdo_codec.md R241 to R244)
  | encodeRdoFixed (r : FixedRdo)
  | encodeRdoBattery (r : BatteryRdo)
  | encodeRdoPps (r : PpsRdo)
  | encodeRdoAvs (r : AvsRdo)
  -- DECODE_RDO k, w (41_rdo_codec.md R246)
  | decodeRdoFixed (w : Word)
  | decodeRdoBattery (w : Word)
  | decodeRdoPps (w : Word)
  | decodeRdoAvs (w : Word)
  -- CHECK_RDO p, r (R248) and DECODE_STATUS b (R322)
  | checkRdo (p : Pdo) (r : Rdo)
  | decodeStatus (b : Byte)
  -- register operations
  | refreshPdos
  | writeRdo (r : Rdo)
  | resetRdo
  | readStatus
  | setMask (m : Byte)
  | getMask
  | readVoltage
  | readCurrent
  | readTemp
  | setOcp (mA : Nat)
  | getOcp
  | setOtp (c : Nat)
  | getOtp
  | setDr (c : Nat)
  | getDr
  | setNtc (k ohm : Nat)
  | getNtc (k : Nat)
  | isPresent
  | init
  -- cached and external operations
  | getPdoCnt
  | getPdo (i : Nat)
  | getLastRdo
  | getStatus
  | getLastVoltage
  | getLastCurrent
  | getLastTemp
  | pollInt
  deriving DecidableEq, Repr

end Sys2Proof
end

