-- ==== Sys2Proof/Machine/Layout.lean ====
section
/-! DEFINITION. The parameter LAYOUT: its default, the one table of bit positions and tag values (30_encoding.md R111 to
R126; 92_eei_decisions.md D1), PRESUMED from USB Power Delivery 3.1, which the spec takes from general knowledge (log 7);
and when a layout is one at all, its fields fitting their places and standing apart. -/

namespace Sys2Proof.Machine

/-- A one-bit field. -/
def bitAt (i : Nat) : FieldPos := ⟨i, i⟩

/-- The RDO common header (30_encoding.md R122). -/
def hdrLayout : HdrLayout where
  objPos := ⟨31, 28⟩
  giveBack := bitAt 27
  capMismatch := bitAt 26
  usbCommCapable := bitAt 25
  noUsbSuspend := bitAt 24
  unchunkedExtMsg := bitAt 23
  eprCapable := bitAt 22

/-- The Fixed Supply PDO (30_encoding.md R114). Bit 22 is reserved. -/
def fixedPdoLayout : FixedPdoLayout where
  dualRolePower := bitAt 29
  usbSuspendSupported := bitAt 28
  unconstrainedPower := bitAt 27
  usbCommCapable := bitAt 26
  dualRoleData := bitAt 25
  unchunkedExtMsg := bitAt 24
  eprCapable := bitAt 23
  peakCurrent := ⟨21, 20⟩
  voltage := ⟨19, 10⟩
  maxCurrent := ⟨9, 0⟩

/-- The parameter `LAYOUT` at its default. Positions: 30_encoding.md R111, R112, R114 to R118, R122 to R126; tag values:
R111, R112. -/
def defaultLayout : Layout where
  typeTag := ⟨31, 30⟩
  powerRange := ⟨29, 28⟩
  tagFixed := 0b00#2
  tagBattery := 0b01#2
  tagVariable := 0b10#2
  tagAugmented := 0b11#2
  rangePps := 0b00#2
  rangeEprAvs := 0b01#2
  fixedPdo := fixedPdoLayout
  batteryPdo := { maxVoltage := ⟨29, 20⟩, minVoltage := ⟨19, 10⟩, maxPower := ⟨9, 0⟩ }
  variablePdo := { maxVoltage := ⟨29, 20⟩, minVoltage := ⟨19, 10⟩, maxCurrent := ⟨9, 0⟩ }
  ppsPdo :=
    { powerLimited := bitAt 27, maxVoltage := ⟨24, 17⟩, minVoltage := ⟨15, 8⟩, maxCurrent := ⟨6, 0⟩ }
  avsPdo := { peakCurrent := ⟨27, 26⟩, maxVoltage := ⟨25, 17⟩, minVoltage := ⟨15, 8⟩, pdp := ⟨7, 0⟩ }
  hdr := hdrLayout
  fixedRdo := { first := ⟨19, 10⟩, second := ⟨9, 0⟩ }
  batteryRdo := { first := ⟨19, 10⟩, second := ⟨9, 0⟩ }
  ppsRdo := { first := ⟨20, 9⟩, second := ⟨6, 0⟩ }
  avsRdo := { first := ⟨20, 9⟩, second := ⟨6, 0⟩ }

end Sys2Proof.Machine

namespace Sys2Proof

/-- The fields of a PDO word of a variant, each with the width of its record's field (30_encoding.md R111, R112, R114 to
R119): the type tag first, then the power range of an augmented PDO. -/
def Layout.pdoFields (l : Layout) (v : PdoVariant) : List (FieldPos × Nat) :=
  (l.typeTag, 2) ::
  match v with
  | .fixed =>
    [(l.fixedPdo.dualRolePower, 1), (l.fixedPdo.usbSuspendSupported, 1), (l.fixedPdo.unconstrainedPower, 1),
     (l.fixedPdo.usbCommCapable, 1), (l.fixedPdo.dualRoleData, 1), (l.fixedPdo.unchunkedExtMsg, 1),
     (l.fixedPdo.eprCapable, 1), (l.fixedPdo.peakCurrent, 2), (l.fixedPdo.voltage, 10), (l.fixedPdo.maxCurrent, 10)]
  | .battery => [(l.batteryPdo.maxVoltage, 10), (l.batteryPdo.minVoltage, 10), (l.batteryPdo.maxPower, 10)]
  | .variableSupply => [(l.variablePdo.maxVoltage, 10), (l.variablePdo.minVoltage, 10), (l.variablePdo.maxCurrent, 10)]
  | .pps =>
    [(l.powerRange, 2), (l.ppsPdo.powerLimited, 1), (l.ppsPdo.maxVoltage, 8), (l.ppsPdo.minVoltage, 8),
     (l.ppsPdo.maxCurrent, 7)]
  | .eprAvs =>
    [(l.powerRange, 2), (l.avsPdo.peakCurrent, 2), (l.avsPdo.maxVoltage, 9), (l.avsPdo.minVoltage, 8), (l.avsPdo.pdp, 8)]
  | .opaquePdo => [(l.powerRange, 2)]

/-- The two operating-point fields of an RDO word of a kind, with their widths (30_encoding.md R123 to R126). -/
def Layout.pointFields (l : Layout) (k : RdoKind) : List (FieldPos × Nat) :=
  match k with
  | .fixed => [(l.fixedRdo.first, 10), (l.fixedRdo.second, 10)]
  | .battery => [(l.batteryRdo.first, 10), (l.batteryRdo.second, 10)]
  | .pps => [(l.ppsRdo.first, 12), (l.ppsRdo.second, 7)]
  | .avs => [(l.avsRdo.first, 12), (l.avsRdo.second, 7)]

/-- The fields of an RDO word of a kind: the common header, then the operating point (30_encoding.md R122 to R126). -/
def Layout.rdoFields (l : Layout) (k : RdoKind) : List (FieldPos × Nat) :=
  [(l.hdr.objPos, 4), (l.hdr.giveBack, 1), (l.hdr.capMismatch, 1), (l.hdr.usbCommCapable, 1), (l.hdr.noUsbSuspend, 1),
   (l.hdr.unchunkedExtMsg, 1), (l.hdr.eprCapable, 1)] ++ l.pointFields k

/-- A place that holds a field of `n` bits and lies in a word (00_scope.md R11). -/
def FieldPos.fits (p : FieldPos) (n : Nat) : Bool := p.hi + 1 == p.lo + n && decide (p.hi < 32)

/-- Two places without a common bit. -/
def FieldPos.apart (p q : FieldPos) : Bool := decide (p.hi < q.lo) || decide (q.hi < p.lo)

/-- The fields fit their places and stand apart from one another. -/
def fieldsApart : List (FieldPos × Nat) → Bool
  | [] => true
  | f :: rest => f.1.fits f.2 && rest.all (fun g => f.1.apart g.1) && fieldsApart rest

/-- A table of positions and tag values is a layout: in each form of a word the fields fit and stand apart, and no two
tag values are equal (30_encoding.md R111 to R126). -/
def Layout.wf (l : Layout) : Bool :=
  [PdoVariant.fixed, .battery, .variableSupply, .pps, .eprAvs, .opaquePdo].all (fun v => fieldsApart (l.pdoFields v))
    && [RdoKind.fixed, .battery, .pps, .avs].all (fun k => fieldsApart (l.rdoFields k))
    && decide ([l.tagFixed, l.tagBattery, l.tagVariable, l.tagAugmented].Nodup) && decide (l.rangePps ≠ l.rangeEprAvs)

end Sys2Proof
end

