-- ==== Sys2Proof/Machine/Operands.lean ====
section
/-! DEFINITION. The operand forms of the codec: a PDO word to its variant (40_pdo_decoder.md), an RDO to its word and
back (41_rdo_codec.md), the bounds check, the physical values, and the scales of the register bytes
(44_measure_threshold.md). Every bit position and tag value comes from the
layout `l` that a definition takes as its argument: the parameter LAYOUT (00_scope.md R10; 92_eei_decisions.md D1). -/

namespace Sys2Proof.Machine

/-- `variant(w)` (30_encoding.md R113): the type tag first, the power range only for an augmented PDO. -/
def variant (l : Layout) (w : Word) : PdoVariant :=
  let tag : BitVec 2 := field w l.typeTag
  let range : BitVec 2 := field w l.powerRange
  if tag = l.tagFixed then .fixed
  else if tag = l.tagBattery then .battery
  else if tag = l.tagVariable then .variableSupply
  else if range = l.rangePps then .pps
  else if range = l.rangeEprAvs then .eprAvs
  else .opaquePdo

/-- `decode_fixed(w)` (40_pdo_decoder.md R201). -/
def decodeFixed (l : Layout) (w : Word) : FixedPdo where
  dualRolePower := field w l.fixedPdo.dualRolePower
  usbSuspendSupported := field w l.fixedPdo.usbSuspendSupported
  unconstrainedPower := field w l.fixedPdo.unconstrainedPower
  usbCommCapable := field w l.fixedPdo.usbCommCapable
  dualRoleData := field w l.fixedPdo.dualRoleData
  unchunkedExtMsg := field w l.fixedPdo.unchunkedExtMsg
  eprCapable := field w l.fixedPdo.eprCapable
  peakCurrent := field w l.fixedPdo.peakCurrent
  voltage := field w l.fixedPdo.voltage
  maxCurrent := field w l.fixedPdo.maxCurrent

/-- `decode_battery(w)` (40_pdo_decoder.md R202). -/
def decodeBattery (l : Layout) (w : Word) : BatteryPdo where
  maxVoltage := field w l.batteryPdo.maxVoltage
  minVoltage := field w l.batteryPdo.minVoltage
  maxPower := field w l.batteryPdo.maxPower

/-- `decode_variable(w)` (40_pdo_decoder.md R203). -/
def decodeVariable (l : Layout) (w : Word) : VariablePdo where
  maxVoltage := field w l.variablePdo.maxVoltage
  minVoltage := field w l.variablePdo.minVoltage
  maxCurrent := field w l.variablePdo.maxCurrent

/-- `decode_pps(w)` (40_pdo_decoder.md R204). -/
def decodePps (l : Layout) (w : Word) : PpsPdo where
  powerLimited := field w l.ppsPdo.powerLimited
  maxVoltage := field w l.ppsPdo.maxVoltage
  minVoltage := field w l.ppsPdo.minVoltage
  maxCurrent := field w l.ppsPdo.maxCurrent

/-- `decode_avs(w)` (40_pdo_decoder.md R205). -/
def decodeAvs (l : Layout) (w : Word) : AvsPdo where
  peakCurrent := field w l.avsPdo.peakCurrent
  maxVoltage := field w l.avsPdo.maxVoltage
  minVoltage := field w l.avsPdo.minVoltage
  pdp := field w l.avsPdo.pdp

/-- `DECODE_PDO(w)` (40_pdo_decoder.md R200): total, no semantic check of any field (R208, R209). -/
def decodePdo (l : Layout) (w : Word) : Pdo :=
  match variant l w with
  | .fixed => .fixed (decodeFixed l w)
  | .battery => .battery (decodeBattery l w)
  | .variableSupply => .variableSupply (decodeVariable l w)
  | .pps => .pps (decodePps l w)
  | .eprAvs => .eprAvs (decodeAvs l w)
  | .opaquePdo => .opaquePdo w

/-- `hdr_bits(h)` (41_rdo_codec.md R240, 30_encoding.md R122). -/
def hdrBits (l : Layout) (h : Hdr) : Word :=
  place h.objPos.bits l.hdr.objPos ||| place h.giveBack l.hdr.giveBack
    ||| place h.capMismatch l.hdr.capMismatch ||| place h.usbCommCapable l.hdr.usbCommCapable
    ||| place h.noUsbSuspend l.hdr.noUsbSuspend ||| place h.unchunkedExtMsg l.hdr.unchunkedExtMsg
    ||| place h.eprCapable l.hdr.eprCapable

/-- `ENCODE_RDO(Fixed)` (41_rdo_codec.md R241); by default bits 21:20 are 0. -/
def encodeFixedRdo (l : Layout) (r : FixedRdo) : Word :=
  hdrBits l r.hdr ||| (place r.opCurrent l.fixedRdo.first ||| place r.maxOpCurrent l.fixedRdo.second)

/-- `ENCODE_RDO(Battery)` (41_rdo_codec.md R242); by default bits 21:20 are 0. -/
def encodeBatteryRdo (l : Layout) (r : BatteryRdo) : Word :=
  hdrBits l r.hdr ||| (place r.opPower l.batteryRdo.first ||| place r.maxOpPower l.batteryRdo.second)

/-- `ENCODE_RDO(PPS)` (41_rdo_codec.md R243); by default bits 21 and 8:7 are 0. -/
def encodePpsRdo (l : Layout) (r : PpsRdo) : Word :=
  hdrBits l r.hdr ||| (place r.outVoltage l.ppsRdo.first ||| place r.opCurrent l.ppsRdo.second)

/-- `ENCODE_RDO(AVS)` (41_rdo_codec.md R244); by default bits 21 and 8:7 are 0. -/
def encodeAvsRdo (l : Layout) (r : AvsRdo) : Word :=
  hdrBits l r.hdr ||| (place r.outVoltage l.avsRdo.first ||| place r.opCurrent l.avsRdo.second)

/-- `ENCODE_RDO(r)` (41_rdo_codec.md R241 to R245): total, truncates and clamps nothing. -/
def encodeRdo (l : Layout) : Rdo → Word
  | .fixed r => encodeFixedRdo l r
  | .battery r => encodeBatteryRdo l r
  | .pps r => encodePpsRdo l r
  | .avs r => encodeAvsRdo l r

/-- `kind(r)` (41_rdo_codec.md R240). -/
def kindOf : Rdo → RdoKind
  | .fixed _ => .fixed
  | .battery _ => .battery
  | .pps _ => .pps
  | .avs _ => .avs

/-- `r.hdr`, the header common to the four variants (41_rdo_codec.md R240). -/
def hdrOf : Rdo → Hdr
  | .fixed r => r.hdr
  | .battery r => r.hdr
  | .pps r => r.hdr
  | .avs r => r.hdr

/-- An object position, or nothing where the field is 0 (30_encoding.md R129). -/
def objPosOf (b : BitVec 4) : Option ObjPos :=
  if h : (b == 0#4) = false then some ⟨b, h⟩ else none

/-- The header of an RDO word, or nothing where its position field is 0 (41_rdo_codec.md R246). -/
def readHdr (l : Layout) (w : Word) : Option Hdr :=
  (objPosOf (field w l.hdr.objPos)).map fun p =>
    { objPos := p
      giveBack := field w l.hdr.giveBack
      capMismatch := field w l.hdr.capMismatch
      usbCommCapable := field w l.hdr.usbCommCapable
      noUsbSuspend := field w l.hdr.noUsbSuspend
      unchunkedExtMsg := field w l.hdr.unchunkedExtMsg
      eprCapable := field w l.hdr.eprCapable }

/-- The payload of an RDO word under a kind, with a given header (41_rdo_codec.md R246); reserved bits are ignored. -/
def readPayload (l : Layout) (k : RdoKind) (h : Hdr) (w : Word) : Rdo :=
  match k with
  | .fixed =>
    .fixed { hdr := h, opCurrent := field w l.fixedRdo.first, maxOpCurrent := field w l.fixedRdo.second }
  | .battery =>
    .battery { hdr := h, opPower := field w l.batteryRdo.first, maxOpPower := field w l.batteryRdo.second }
  | .pps =>
    .pps { hdr := h, outVoltage := field w l.ppsRdo.first, opCurrent := field w l.ppsRdo.second }
  | .avs =>
    .avs { hdr := h, outVoltage := field w l.avsRdo.first, opCurrent := field w l.avsRdo.second }

/-- `DECODE_RDO(k, w)` (41_rdo_codec.md R246); nothing where it raises `InvalidPosition(0)`. -/
def decodeRdo (l : Layout) (k : RdoKind) (w : Word) : Option Rdo :=
  (readHdr l w).map fun h => readPayload l k h w

/-- `matches(pdo, rdo)` (30_encoding.md R127). -/
def matchesRdo : Pdo → Rdo → Bool
  | .fixed _, .fixed _ => true
  | .variableSupply _, .fixed _ => true
  | .battery _, .battery _ => true
  | .pps _, .pps _ => true
  | .eprAvs _, .avs _ => true
  | _, _ => false

end Sys2Proof.Machine

namespace Sys2Proof

/-! ## Physical values of a PDO: exact products (30_encoding.md R120, 40_pdo_decoder.md R207) -/

/-- Fixed: voltage in mV, unit 50 mV. -/
def FixedPdo.voltageMilliVolt (p : FixedPdo) : Nat := p.voltage.toNat * 50
/-- Fixed: maximum current in mA, unit 10 mA. -/
def FixedPdo.maxCurrentMilliAmp (p : FixedPdo) : Nat := p.maxCurrent.toNat * 10
/-- Battery: minimum voltage in mV, unit 50 mV. -/
def BatteryPdo.minMilliVolt (p : BatteryPdo) : Nat := p.minVoltage.toNat * 50
/-- Battery: maximum voltage in mV, unit 50 mV. -/
def BatteryPdo.maxMilliVolt (p : BatteryPdo) : Nat := p.maxVoltage.toNat * 50
/-- Battery: maximum power in mW, unit 250 mW. -/
def BatteryPdo.maxPowerMilliWatt (p : BatteryPdo) : Nat := p.maxPower.toNat * 250
/-- Variable: minimum voltage in mV, unit 50 mV. -/
def VariablePdo.minMilliVolt (p : VariablePdo) : Nat := p.minVoltage.toNat * 50
/-- Variable: maximum voltage in mV, unit 50 mV. -/
def VariablePdo.maxMilliVolt (p : VariablePdo) : Nat := p.maxVoltage.toNat * 50
/-- Variable: maximum current in mA, unit 10 mA. -/
def VariablePdo.maxCurrentMilliAmp (p : VariablePdo) : Nat := p.maxCurrent.toNat * 10
/-- PPS: minimum voltage in mV, unit 100 mV. -/
def PpsPdo.minMilliVolt (p : PpsPdo) : Nat := p.minVoltage.toNat * 100
/-- PPS: maximum voltage in mV, unit 100 mV. -/
def PpsPdo.maxMilliVolt (p : PpsPdo) : Nat := p.maxVoltage.toNat * 100
/-- PPS: maximum current in mA, unit 50 mA. -/
def PpsPdo.maxCurrentMilliAmp (p : PpsPdo) : Nat := p.maxCurrent.toNat * 50
/-- EPR_AVS: minimum voltage in mV, unit 100 mV. -/
def AvsPdo.minMilliVolt (p : AvsPdo) : Nat := p.minVoltage.toNat * 100
/-- EPR_AVS: maximum voltage in mV, unit 100 mV. -/
def AvsPdo.maxMilliVolt (p : AvsPdo) : Nat := p.maxVoltage.toNat * 100
/-- EPR_AVS: PDP in W, unit 1 W. -/
def AvsPdo.pdpWatt (p : AvsPdo) : Nat := p.pdp.toNat
/-- EPR_AVS: PDP in mW. -/
def AvsPdo.pdpMilliWatt (p : AvsPdo) : Nat := p.pdp.toNat * 1000

/-! ## Physical values of a request: exact products (30_encoding.md R121, 41_rdo_codec.md R251) -/

/-- Fixed: operating current in mA, unit 10 mA. -/
def FixedRdo.opMilliAmp (r : FixedRdo) : Nat := r.opCurrent.toNat * 10
/-- Fixed: maximum operating current in mA, unit 10 mA. -/
def FixedRdo.maxOpMilliAmp (r : FixedRdo) : Nat := r.maxOpCurrent.toNat * 10
/-- Battery: operating power in mW, unit 250 mW. -/
def BatteryRdo.opMilliWatt (r : BatteryRdo) : Nat := r.opPower.toNat * 250
/-- Battery: maximum operating power in mW, unit 250 mW. -/
def BatteryRdo.maxOpMilliWatt (r : BatteryRdo) : Nat := r.maxOpPower.toNat * 250
/-- PPS: output voltage in mV, unit 20 mV. -/
def PpsRdo.outMilliVolt (r : PpsRdo) : Nat := r.outVoltage.toNat * 20
/-- PPS: operating current in mA, unit 50 mA. -/
def PpsRdo.opMilliAmp (r : PpsRdo) : Nat := r.opCurrent.toNat * 50
/-- AVS: output voltage in mV, unit 25 mV. -/
def AvsRdo.outMilliVolt (r : AvsRdo) : Nat := r.outVoltage.toNat * 25
/-- AVS: operating current in mA, unit 50 mA. -/
def AvsRdo.opMilliAmp (r : AvsRdo) : Nat := r.opCurrent.toNat * 50

end Sys2Proof

namespace Sys2Proof.Machine

/-- `in_bounds(p, r)` of a matching pair, in physical units (41_rdo_codec.md R249); false for a pair that does not
match, which CHECK_RDO answers before it comes here. -/
def inBounds : Pdo → Rdo → Bool
  | .fixed p, .fixed r =>
    decide (r.opMilliAmp ≤ p.maxCurrentMilliAmp) && decide (r.maxOpMilliAmp ≤ p.maxCurrentMilliAmp)
  | .variableSupply p, .fixed r =>
    decide (r.opMilliAmp ≤ p.maxCurrentMilliAmp) && decide (r.maxOpMilliAmp ≤ p.maxCurrentMilliAmp)
  | .battery p, .battery r =>
    decide (r.opMilliWatt ≤ p.maxPowerMilliWatt) && decide (r.maxOpMilliWatt ≤ p.maxPowerMilliWatt)
  | .pps p, .pps r =>
    decide (p.minMilliVolt ≤ r.outMilliVolt) && decide (r.outMilliVolt ≤ p.maxMilliVolt)
      && decide (r.opMilliAmp ≤ p.maxCurrentMilliAmp)
  | .eprAvs p, .avs r =>
    decide (p.minMilliVolt ≤ r.outMilliVolt) && decide (r.outMilliVolt ≤ p.maxMilliVolt)
  | _, _ => false

/-- `CHECK_RDO(p, r)` (41_rdo_codec.md R248): it looks at no object position and clamps nothing (R250). -/
def checkRdo (p : Pdo) (r : Rdo) : Bool :=
  if matchesRdo p r then inBounds p r else false

/-! ## Scales of the register bytes (30_encoding.md R134, 44_measure_threshold.md R365) -/

/-- Voltage measurement: mV = raw x 80 (44_measure_threshold.md R350). -/
def voltageOf (raw : Byte) : Nat := raw.toNat * 80
/-- Current measurement with the default shunt: mA = raw x 24; with another shunt the value is open, and `open_` stands
in its place (44_measure_threshold.md R351, R354). -/
def currentOf (shuntDefault : Bool) (raw : Byte) (open_ : Nat) : Nat :=
  if shuntDefault then raw.toNat * 24 else open_
/-- Over-current threshold: mA = raw x 50 (44_measure_threshold.md R357). -/
def ocpOf (raw : Byte) : Nat := raw.toNat * 50
/-- Over-current threshold to its raw byte: raw = mA / 50, floor (44_measure_threshold.md R356). -/
def ocpRaw (mA : Nat) : Byte := BitVec.ofNat 8 (mA / 50)
/-- Temperature thresholds: °C = raw, unsigned (44_measure_threshold.md R359, R361). -/
def degreesOf (raw : Byte) : Nat := raw.toNat
/-- `ntc_addr(k)`, nothing for a point other than 25, 50, 75, 100 (44_measure_threshold.md R362). -/
def ntcAddr (k : Nat) : Option RegAddr :=
  if k = 25 then some 0x28#8
  else if k = 50 then some 0x2A#8
  else if k = 75 then some 0x2C#8
  else if k = 100 then some 0x2E#8
  else none
/-- The stored count of a raw count byte: `min(raw, 7)` (42_pdo_rdo_registers.md R281). -/
def countOf (raw : Byte) : Fin 8 := ⟨min raw.toNat 7, by omega⟩

end Sys2Proof.Machine
end

