-- ==== Sys2Proof/Decode.lean ====
section
/-! DEFINITION. From a call to its operation form, and back. Operations are not encoded as bits (30_encoding.md R136):
the caller names the operation and passes its operands. `decode` checks the operand domains of R138 and selects the form
of R113, `encode` writes the call of a form. The order of the operands is that of R135, R138 and 40_pdo_decoder.md R199;
the numbers that name a kind or a variant are the model's (DESIGN CHOICE, log 6). -/

namespace Sys2Proof

/-- One natural operand: any natural (30_encoding.md R138). -/
def takeNat : List Nat → Except CallError (Nat × List Nat)
  | [] => .error .missingOperand
  | x :: rest => .ok (x, rest)

/-- One operand of `n` bits (30_encoding.md R138). -/
def takeBits (n : Nat) : List Nat → Except CallError ((BitVec n) × List Nat)
  | [] => .error .missingOperand
  | x :: rest => if x < 2 ^ n then .ok (BitVec.ofNat n x, rest) else .error (.outsideDomain x)

/-- An object position, 1..15 (30_encoding.md R138). -/
def takePos (args : List Nat) : Except CallError (ObjPos × List Nat) := do
  let (b, args) ← takeBits 4 args
  match Machine.objPosOf b with
  | some p => .ok (p, args)
  | none => .error .positionZero

/-- An RDO header, its fields in the order of 41_rdo_codec.md R240. -/
def takeHdr (args : List Nat) : Except CallError (Hdr × List Nat) := do
  let (objPos, args) ← takePos args
  let (giveBack, args) ← takeBits 1 args
  let (capMismatch, args) ← takeBits 1 args
  let (usbCommCapable, args) ← takeBits 1 args
  let (noUsbSuspend, args) ← takeBits 1 args
  let (unchunkedExtMsg, args) ← takeBits 1 args
  let (eprCapable, args) ← takeBits 1 args
  .ok ({ objPos, giveBack, capMismatch, usbCommCapable, noUsbSuspend, unchunkedExtMsg, eprCapable }, args)

/-- A header and two fields of `a` and `b` bits: the shape of every request (41_rdo_codec.md R240). -/
def takeRequest (a b : Nat) (args : List Nat) : Except CallError ((Hdr × BitVec a × BitVec b) × List Nat) := do
  let (h, args) ← takeHdr args
  let (x, args) ← takeBits a args
  let (y, args) ← takeBits b args
  .ok ((h, x, y), args)

/-- A request kind: 0 Fixed, 1 Battery, 2 PPS, 3 AVS (log 6). -/
def takeKind (args : List Nat) : Except CallError (RdoKind × List Nat) := do
  let (k, args) ← takeNat args
  match k with
  | 0 => .ok (.fixed, args)
  | 1 => .ok (.battery, args)
  | 2 => .ok (.pps, args)
  | 3 => .ok (.avs, args)
  | _ => .error (.outsideDomain k)

/-- A request: its kind, its header, its two fields. -/
def takeRdo (args : List Nat) : Except CallError (Rdo × List Nat) := do
  let (k, args) ← takeKind args
  match k with
  | .fixed =>
    let ((hdr, opCurrent, maxOpCurrent), args) ← takeRequest 10 10 args
    .ok (.fixed { hdr, opCurrent, maxOpCurrent }, args)
  | .battery =>
    let ((hdr, opPower, maxOpPower), args) ← takeRequest 10 10 args
    .ok (.battery { hdr, opPower, maxOpPower }, args)
  | .pps =>
    let ((hdr, outVoltage, opCurrent), args) ← takeRequest 12 7 args
    .ok (.pps { hdr, outVoltage, opCurrent }, args)
  | .avs =>
    let ((hdr, outVoltage, opCurrent), args) ← takeRequest 12 7 args
    .ok (.avs { hdr, outVoltage, opCurrent }, args)

/-- The fields of a Fixed PDO in the order of 40_pdo_decoder.md R199. -/
def takeFixedPdo (args : List Nat) : Except CallError (FixedPdo × List Nat) := do
  let (dualRolePower, args) ← takeBits 1 args
  let (usbSuspendSupported, args) ← takeBits 1 args
  let (unconstrainedPower, args) ← takeBits 1 args
  let (usbCommCapable, args) ← takeBits 1 args
  let (dualRoleData, args) ← takeBits 1 args
  let (unchunkedExtMsg, args) ← takeBits 1 args
  let (eprCapable, args) ← takeBits 1 args
  let (peakCurrent, args) ← takeBits 2 args
  let (voltage, args) ← takeBits 10 args
  let (maxCurrent, args) ← takeBits 10 args
  .ok ({ dualRolePower, usbSuspendSupported, unconstrainedPower, usbCommCapable, dualRoleData, unchunkedExtMsg,
         eprCapable, peakCurrent, voltage, maxCurrent }, args)

/-- A decoded PDO: 0 Fixed, 1 Battery, 2 Variable, 3 PPS, 4 EPR_AVS, 5 Opaque (log 6), then its fields in the order of
40_pdo_decoder.md R199. -/
def takePdo (args : List Nat) : Except CallError (Pdo × List Nat) := do
  let (v, args) ← takeNat args
  match v with
  | 0 =>
    let (p, args) ← takeFixedPdo args
    .ok (.fixed p, args)
  | 1 =>
    let (maxVoltage, args) ← takeBits 10 args
    let (minVoltage, args) ← takeBits 10 args
    let (maxPower, args) ← takeBits 10 args
    .ok (.battery { maxVoltage, minVoltage, maxPower }, args)
  | 2 =>
    let (maxVoltage, args) ← takeBits 10 args
    let (minVoltage, args) ← takeBits 10 args
    let (maxCurrent, args) ← takeBits 10 args
    .ok (.variableSupply { maxVoltage, minVoltage, maxCurrent }, args)
  | 3 =>
    let (powerLimited, args) ← takeBits 1 args
    let (maxVoltage, args) ← takeBits 8 args
    let (minVoltage, args) ← takeBits 8 args
    let (maxCurrent, args) ← takeBits 7 args
    .ok (.pps { powerLimited, maxVoltage, minVoltage, maxCurrent }, args)
  | 4 =>
    let (peakCurrent, args) ← takeBits 2 args
    let (maxVoltage, args) ← takeBits 9 args
    let (minVoltage, args) ← takeBits 8 args
    let (pdp, args) ← takeBits 8 args
    .ok (.eprAvs { peakCurrent, maxVoltage, minVoltage, pdp }, args)
  | 5 =>
    let (raw, args) ← takeBits 32 args
    .ok (.opaquePdo raw, args)
  | _ => .error (.outsideDomain v)

/-- All operands are read: none is left over. -/
def whole {α : Type} (x : Except CallError (α × List Nat)) : Except CallError α :=
  match x with
  | .ok (a, []) => .ok a
  | .ok (_, _ :: _) => .error .extraOperand
  | .error e => .error e

/-- The form of DECODE_PDO that a word selects (40_pdo_decoder.md R200, 30_encoding.md R113). -/
def decodePdoForm (l : Layout) (w : Word) : Instr :=
  match Machine.variant l w with
  | .fixed => .decodePdoFixed w
  | .battery => .decodePdoBattery w
  | .variableSupply => .decodePdoVariable w
  | .pps => .decodePdoPps w
  | .eprAvs => .decodePdoEprAvs w
  | .opaquePdo => .decodePdoOpaque w

/-- The form of ENCODE_RDO that a request's variant selects (41_rdo_codec.md R241 to R244). -/
def encodeRdoForm : Rdo → Instr
  | .fixed r => .encodeRdoFixed r
  | .battery r => .encodeRdoBattery r
  | .pps r => .encodeRdoPps r
  | .avs r => .encodeRdoAvs r

/-- The form of DECODE_RDO that the caller's kind selects (41_rdo_codec.md R246). -/
def decodeRdoForm (k : RdoKind) (w : Word) : Instr :=
  match k with
  | .fixed => .decodeRdoFixed w
  | .battery => .decodeRdoBattery w
  | .pps => .decodeRdoPps w
  | .avs => .decodeRdoAvs w

/-- DECODE_RDO's operands: the kind, then the word. -/
def takeDecodeRdo (args : List Nat) : Except CallError (Instr × List Nat) := do
  let (k, args) ← takeKind args
  let (w, args) ← takeBits 32 args
  .ok (decodeRdoForm k w, args)

/-- CHECK_RDO's operands: the PDO, then the request. -/
def takeCheckRdo (args : List Nat) : Except CallError (Instr × List Nat) := do
  let (p, args) ← takePdo args
  let (r, args) ← takeRdo args
  .ok (.checkRdo p r, args)

/-- SET_NTC's operands: the point, then the resistance. -/
def takeSetNtc (args : List Nat) : Except CallError (Instr × List Nat) := do
  let (k, args) ← takeNat args
  let (ohm, args) ← takeNat args
  .ok (.setNtc k ohm, args)

/-- An operation without operands. -/
def noOperands (i : Instr) (args : List Nat) : Except CallError Instr := whole (.ok (i, args))

/-- The operation form of a call, or the name of what is wrong with it; total on every call (30_encoding.md R135, R136,
R138). -/
def decode (l : Layout) (c : Call) : Except CallError Instr :=
  match c.op with
  | .decodePdo => (whole (takeBits 32 c.args)).map (decodePdoForm l)
  | .encodeRdo => (whole (takeRdo c.args)).map encodeRdoForm
  | .decodeRdo => whole (takeDecodeRdo c.args)
  | .checkRdo => whole (takeCheckRdo c.args)
  | .decodeStatus => (whole (takeBits 8 c.args)).map Instr.decodeStatus
  | .refreshPdos => noOperands .refreshPdos c.args
  | .getPdoCnt => noOperands .getPdoCnt c.args
  | .getPdo => (whole (takeNat c.args)).map Instr.getPdo
  | .getLastRdo => noOperands .getLastRdo c.args
  | .writeRdo => (whole (takeRdo c.args)).map Instr.writeRdo
  | .resetRdo => noOperands .resetRdo c.args
  | .readStatus => noOperands .readStatus c.args
  | .getStatus => noOperands .getStatus c.args
  | .setMask => (whole (takeBits 8 c.args)).map Instr.setMask
  | .getMask => noOperands .getMask c.args
  | .pollInt => noOperands .pollInt c.args
  | .readVoltage => noOperands .readVoltage c.args
  | .readCurrent => noOperands .readCurrent c.args
  | .readTemp => noOperands .readTemp c.args
  | .getLastVoltage => noOperands .getLastVoltage c.args
  | .getLastCurrent => noOperands .getLastCurrent c.args
  | .getLastTemp => noOperands .getLastTemp c.args
  | .setOcp => (whole (takeNat c.args)).map Instr.setOcp
  | .getOcp => noOperands .getOcp c.args
  | .setOtp => (whole (takeNat c.args)).map Instr.setOtp
  | .getOtp => noOperands .getOtp c.args
  | .setDr => (whole (takeNat c.args)).map Instr.setDr
  | .getDr => noOperands .getDr c.args
  | .setNtc => whole (takeSetNtc c.args)
  | .getNtc => (whole (takeNat c.args)).map Instr.getNtc
  | .isPresent => noOperands .isPresent c.args
  | .init => noOperands .init c.args

/-! ## The encoder -/

/-- The operands of a header (41_rdo_codec.md R240). -/
def hdrArgs (h : Hdr) : List Nat :=
  [h.objPos.bits.toNat, h.giveBack.toNat, h.capMismatch.toNat, h.usbCommCapable.toNat, h.noUsbSuspend.toNat,
   h.unchunkedExtMsg.toNat, h.eprCapable.toNat]

/-- The number of a request kind (log 6). -/
def kindArg : RdoKind → Nat
  | .fixed => 0
  | .battery => 1
  | .pps => 2
  | .avs => 3

/-- The operands of a request (41_rdo_codec.md R240). -/
def rdoArgs : Rdo → List Nat
  | .fixed r => kindArg .fixed :: hdrArgs r.hdr ++ [r.opCurrent.toNat, r.maxOpCurrent.toNat]
  | .battery r => kindArg .battery :: hdrArgs r.hdr ++ [r.opPower.toNat, r.maxOpPower.toNat]
  | .pps r => kindArg .pps :: hdrArgs r.hdr ++ [r.outVoltage.toNat, r.opCurrent.toNat]
  | .avs r => kindArg .avs :: hdrArgs r.hdr ++ [r.outVoltage.toNat, r.opCurrent.toNat]

/-- The operands of a decoded PDO (40_pdo_decoder.md R199). -/
def pdoArgs : Pdo → List Nat
  | .fixed p =>
    [0, p.dualRolePower.toNat, p.usbSuspendSupported.toNat, p.unconstrainedPower.toNat, p.usbCommCapable.toNat,
     p.dualRoleData.toNat, p.unchunkedExtMsg.toNat, p.eprCapable.toNat, p.peakCurrent.toNat, p.voltage.toNat,
     p.maxCurrent.toNat]
  | .battery p => [1, p.maxVoltage.toNat, p.minVoltage.toNat, p.maxPower.toNat]
  | .variableSupply p => [2, p.maxVoltage.toNat, p.minVoltage.toNat, p.maxCurrent.toNat]
  | .pps p => [3, p.powerLimited.toNat, p.maxVoltage.toNat, p.minVoltage.toNat, p.maxCurrent.toNat]
  | .eprAvs p => [4, p.peakCurrent.toNat, p.maxVoltage.toNat, p.minVoltage.toNat, p.pdp.toNat]
  | .opaquePdo raw => [5, raw.toNat]

/-- The call of an operation form (30_encoding.md R135). -/
def encode : Instr → Call
  | .decodePdoFixed w => ⟨.decodePdo, [w.toNat]⟩
  | .decodePdoBattery w => ⟨.decodePdo, [w.toNat]⟩
  | .decodePdoVariable w => ⟨.decodePdo, [w.toNat]⟩
  | .decodePdoPps w => ⟨.decodePdo, [w.toNat]⟩
  | .decodePdoEprAvs w => ⟨.decodePdo, [w.toNat]⟩
  | .decodePdoOpaque w => ⟨.decodePdo, [w.toNat]⟩
  | .encodeRdoFixed r => ⟨.encodeRdo, rdoArgs (.fixed r)⟩
  | .encodeRdoBattery r => ⟨.encodeRdo, rdoArgs (.battery r)⟩
  | .encodeRdoPps r => ⟨.encodeRdo, rdoArgs (.pps r)⟩
  | .encodeRdoAvs r => ⟨.encodeRdo, rdoArgs (.avs r)⟩
  | .decodeRdoFixed w => ⟨.decodeRdo, [kindArg .fixed, w.toNat]⟩
  | .decodeRdoBattery w => ⟨.decodeRdo, [kindArg .battery, w.toNat]⟩
  | .decodeRdoPps w => ⟨.decodeRdo, [kindArg .pps, w.toNat]⟩
  | .decodeRdoAvs w => ⟨.decodeRdo, [kindArg .avs, w.toNat]⟩
  | .checkRdo p r => ⟨.checkRdo, pdoArgs p ++ rdoArgs r⟩
  | .decodeStatus b => ⟨.decodeStatus, [b.toNat]⟩
  | .refreshPdos => ⟨.refreshPdos, []⟩
  | .writeRdo r => ⟨.writeRdo, rdoArgs r⟩
  | .resetRdo => ⟨.resetRdo, []⟩
  | .readStatus => ⟨.readStatus, []⟩
  | .setMask m => ⟨.setMask, [m.toNat]⟩
  | .getMask => ⟨.getMask, []⟩
  | .readVoltage => ⟨.readVoltage, []⟩
  | .readCurrent => ⟨.readCurrent, []⟩
  | .readTemp => ⟨.readTemp, []⟩
  | .setOcp mA => ⟨.setOcp, [mA]⟩
  | .getOcp => ⟨.getOcp, []⟩
  | .setOtp c => ⟨.setOtp, [c]⟩
  | .getOtp => ⟨.getOtp, []⟩
  | .setDr c => ⟨.setDr, [c]⟩
  | .getDr => ⟨.getDr, []⟩
  | .setNtc k ohm => ⟨.setNtc, [k, ohm]⟩
  | .getNtc k => ⟨.getNtc, [k]⟩
  | .isPresent => ⟨.isPresent, []⟩
  | .init => ⟨.init, []⟩
  | .getPdoCnt => ⟨.getPdoCnt, []⟩
  | .getPdo i => ⟨.getPdo, [i]⟩
  | .getLastRdo => ⟨.getLastRdo, []⟩
  | .getStatus => ⟨.getStatus, []⟩
  | .getLastVoltage => ⟨.getLastVoltage, []⟩
  | .getLastCurrent => ⟨.getLastCurrent, []⟩
  | .getLastTemp => ⟨.getLastTemp, []⟩
  | .pollInt => ⟨.pollInt, []⟩

/-! ## The table's words -/

/-- The call that a word of spec/opcode_table.json stands for. Only two rows' words name an operation (30_encoding.md
R136): 32 bits are the operand of DECODE_PDO, 8 bits that of DECODE_STATUS. Any other width is no call: it is given to
the decoder without an operand, which refuses it (DESIGN CHOICE, log 12). -/
def callOfTableWord (nbits w : Nat) : Call :=
  if nbits = 32 then ⟨.decodePdo, [w]⟩
  else if nbits = 8 then ⟨.decodeStatus, [w]⟩
  else ⟨.decodePdo, []⟩

/-- The instruction the decoder reads from a table word under the default LAYOUT (log 7); none where it refuses. -/
def decodeTableWord (nbits w : Nat) : Option Instr :=
  match decode Machine.defaultLayout (callOfTableWord nbits w) with
  | .ok i => some i
  | .error _ => none

end Sys2Proof
end

