-- ==== Sys2Proof/Machine/Flags.lean ====
section
/-! DEFINITION. The flags of the status byte. The block computes no flag: it splits a byte the device has set
(10_state.md R38, R39). -/

namespace Sys2Proof.Machine

/-- `DECODE_STATUS(b)` (43_status_interrupt.md R322, 30_encoding.md R132): from bit 7 to bit 0. -/
def statusFlags (b : Byte) : StatusFlags where
  derating := bitOf b 7
  overTemperature := bitOf b 6
  overCurrent := bitOf b 5
  overVoltage := bitOf b 4
  reserved := bitOf b 3
  newPdo := bitOf b 2
  success := bitOf b 1
  ready := bitOf b 0

/-- The interrupts a mask byte enables, in the layout of the status byte, 1 = enabled (30_encoding.md R133, 10_state.md
R43; 92_eei_decisions.md D14). No operation reads it: "the block gives no bit a meaning of its own". -/
def maskFlags (m : Byte) : StatusFlags := statusFlags m

end Sys2Proof.Machine
end

