-- ==== Sys2Proof/Machine/Parameters.lean ====
section
/-! DEFINITION. The default values of the named parameters (00_scope.md R10). -/

namespace Sys2Proof.Machine

/-- The parameters at the spec's defaults (00_scope.md R10; 92_eei_decisions.md D1, D14, D15, D19, D25; logs 7, 9,
10). -/
def defaultParams : Params where
  layout := defaultLayout
  devAddr := 0x51#7
  shuntDefault := true
  maskInit := 0x01#8
  ocpInit := 0xFF#8
  otpInit := 0xFF#8
  drInit := 0xFF#8

end Sys2Proof.Machine
end

