-- ==== Sys2Proof/Machine/State.lean ====
section
/-! DEFINITION. The state of the machine as plain data: the block's cells (10_state.md R32), the device's registers as
far as the model knows them (20_memory.md R83), the caller's program (10_state.md R31), the environment's answers
(R55), and what the host sees: the last result and the transactions on the bus (20_memory.md R85). -/

namespace Sys2Proof.Machine

/-- The value of a result `Ok(v)`, tagged by the result type of 30_encoding.md R135 and the unit of 00_scope.md R16. -/
inductive Value where
  /-- `unit`. -/
  | unit
  /-- A raw 32-bit word (ENCODE_RDO, GET_LAST_RDO). -/
  | word (w : Word)
  /-- A raw byte (READ_STATUS, GET_STATUS, GET_MASK). -/
  | byte (b : Byte)
  /-- A boolean (CHECK_RDO, POLL_INT, IS_PRESENT). -/
  | bool (b : Bool)
  /-- A count of PDOs (GET_PDO_CNT). -/
  | count (n : Nat)
  /-- A decoded PDO (DECODE_PDO, GET_PDO). -/
  | pdo (p : Pdo)
  /-- A decoded request (DECODE_RDO). -/
  | rdo (r : Rdo)
  /-- The flags of a status byte (DECODE_STATUS). -/
  | status (f : StatusFlags)
  /-- mV. -/
  | milliVolt (n : Nat)
  /-- mA. -/
  | milliAmp (n : Nat)
  /-- °C, a signed temperature. -/
  | celsius (z : Int)
  /-- °C, an unsigned threshold. -/
  | degrees (n : Nat)
  /-- Ω. -/
  | ohm (n : Nat)
  deriving DecidableEq, Repr

/-- The errors an operation can return (60_exceptions.md R421). -/
inductive Err where
  /-- The transport reported non-success (R422). -/
  | transportFailure
  /-- A PDO index or object position of 0, above 7, or above the count (R423). -/
  | invalidPosition (i : Nat)
  /-- The request's variant does not match the targeted PDO's (R424). -/
  | variantMismatch (p : Nat)
  /-- An argument that does not fit its register, or an NTC point other than 25, 50, 75, 100 (R426). -/
  | argumentOutOfRange (x : Nat)
  deriving DecidableEq, Repr

/-- The typed result an operation hands to its caller (60_exceptions.md R420). -/
inductive OpResult where
  | ok (v : Value)
  | err (e : Err)
  deriving DecidableEq, Repr

/-- The names of the block's cells (10_state.md R32). -/
inductive BlockCell where
  | slot (i : Fin 8)
  | pdoCount
  | statusSnap
  | vSnap
  | iSnap
  | tSnap
  deriving DecidableEq, Repr

/-- Why the machine stops. -/
inductive Fault where
  /-- An operation read a cell that holds `none` (60_exceptions.md R425: "the run stops there"). Raised by the cached
  accessors, GET_PDO and WRITE_RDO. Safe: the spec's own fault, no value stands in for the missing one. -/
  | unwritten (c : BlockCell)
  deriving DecidableEq, Repr

/-- Why a call has no meaning. -/
inductive Refusal where
  /-- Raised by an arm of exec whose instruction has no meaning yet. No arm raises it. Safe: the run stops. -/
  | notModelled (mnemonic : String)
  /-- Raised by the step where the caller's call is no operation: its operands lie outside the domains of
  30_encoding.md R138, on which alone "an operation is only defined" (log 8). Safe: the run stops. -/
  | malformedCall (e : CallError)
  deriving DecidableEq, Repr

/-- One transport transaction as the device sees it, with the transport's answer (20_memory.md R80, R81, R85). -/
inductive Transaction where
  /-- A read of `count` bytes from `addr`; the bytes returned, or nothing on failure. -/
  | read (dev : BitVec 7) (addr : RegAddr) (count : Nat) (answer : Option (List Byte))
  /-- A write of `bytes` to `addr`; whether it succeeded. -/
  | write (dev : BitVec 7) (addr : RegAddr) (bytes : List Byte) (ok : Bool)
  /-- A zero-length probe; whether the device acknowledged. -/
  | probe (dev : BitVec 7) (ok : Bool)
  deriving DecidableEq, Repr

/-- The block state `S`: exactly the cells of 10_state.md R32, each `none` (never written) or a value. -/
structure Block where
  /-- `S.slot[0..7]`: slot 0 the last issued RDO, slots 1..7 the advertised PDOs (R33). -/
  slot : Vector (Option Word) 8
  /-- `S.pdo_count`: a natural 0..7 (R35). -/
  pdoCount : Option (Fin 8)
  /-- `S.status_snap` (R37). -/
  statusSnap : Option Byte
  /-- `S.v_snap` (R40). -/
  vSnap : Option Byte
  /-- `S.i_snap` (R40). -/
  iSnap : Option Byte
  /-- `S.t_snap`, an `s8` (R40). -/
  tSnap : Option Byte
  deriving DecidableEq, Repr

/-- The device register space as far as the model knows it: the bytes of registers whose last write succeeded, by
rising address (20_memory.md R76, R83). What an unlisted address reads as is not known: a read of it draws
(20_memory.md R83, R84; log 13). -/
abbrev Memory := List Host.Cell

/-- The machine: the block, its device, its caller and its environment. -/
structure State where
  /-- The block's cells (10_state.md R32). -/
  block : Block
  /-- The device's registers as far as they are known (20_memory.md R83). -/
  device : Memory
  /-- The named parameters (00_scope.md R10), fixed for the run. -/
  params : Params
  /-- The caller's program: a list of calls (10_state.md R31; log 2). -/
  program : List Call
  /-- The caller's index into it (10_state.md R31). -/
  index : Nat
  /-- The result of the last operation; none before the first (60_exceptions.md R420; log 3). -/
  result : Option OpResult
  /-- The environment's answers the host has supplied (10_state.md R55; log 4). -/
  tape : List Draw
  /-- How many draws were made (log 4). -/
  drawn : Nat
  /-- The transactions the device has seen, oldest first (20_memory.md R85; log 5). -/
  bus : List Transaction
  deriving DecidableEq, Repr

/-- The block at power-up: every cell `none` (10_state.md R52, 70_reset_and_hazards.md R460). -/
def Block.reset : Block where
  slot := #v[none, none, none, none, none, none, none, none]
  pdoCount := none
  statusSnap := none
  vSnap := none
  iSnap := none
  tSnap := none

/-- The machine right after reset: the block waits for its first operation (70_reset_and_hazards.md R460), no device
register is known (R463), the parameters are at their defaults (00_scope.md R10). The caller's program, the result, the
tape, the draw counter and the bus are empty: DESIGN CHOICE (logs 2 to 5). -/
def State.reset : State where
  block := Block.reset
  device := []
  params := defaultParams
  program := []
  index := 0
  result := none
  tape := []
  drawn := 0
  bus := []

end Sys2Proof.Machine
end

