-- ==== Sys2Proof/Machine/Ops.lean ====
section
/-! DEFINITION. The named operations over the state: the device memory, the environment's draws, the transport
primitives, the block's cells, and how an operation ends (00_scope.md R15). -/

namespace Sys2Proof.Machine

/-! ## The device memory (20_memory.md R76, R83) -/

/-- The known byte at an address, nothing where it is not listed. -/
def Memory.read : Memory → Nat → Option Byte
  | [], _ => none
  | (k, c) :: m, a => if a = k then some c else Memory.read m a

/-- The memory with one byte known; addresses stay strictly rising. -/
def Memory.write : Memory → Nat → Byte → Memory
  | [], a, b => [(a, b)]
  | (k, c) :: m, a, b =>
    if a < k then (a, b) :: (k, c) :: m
    else if a = k then (a, b) :: m
    else (k, c) :: Memory.write m a b

/-- The memory with one byte no longer known. -/
def Memory.forget : Memory → Nat → Memory
  | [], _ => []
  | (k, c) :: m, a => if a = k then Memory.forget m a else (k, c) :: Memory.forget m a

/-- The memory with the bytes of a register known, the first at `a`. -/
def Memory.writeBytes (m : Memory) (a : Nat) : List Byte → Memory
  | [] => m
  | b :: bs => Memory.writeBytes (Memory.write m a b) (a + 1) bs

/-- The memory with `n` bytes from `a` no longer known. -/
def Memory.forgetBytes (m : Memory) (a : Nat) : Nat → Memory
  | 0 => m
  | n + 1 => Memory.forgetBytes (Memory.forget m a) (a + 1) n

/-- A byte of a configuration register: 0x1E, 0x23..0x25, 0x28..0x2F (20_memory.md R83). -/
def configAddr (a : Nat) : Bool :=
  a == 0x1E || (decide (0x23 ≤ a) && decide (a ≤ 0x25)) || (decide (0x28 ≤ a) && decide (a ≤ 0x2F))

/-- A byte of the request register, 0x30..0x33 (10_state.md R50). -/
def requestAddr (a : Nat) : Bool := decide (0x30 ≤ a) && decide (a ≤ 0x33)

/-- A byte the block writes (20_memory.md R77). -/
def writtenAddr (a : Nat) : Bool := configAddr a || requestAddr a

/-- Addresses strictly rising, all of them above `lo`. -/
def Memory.risingFrom : Nat → Memory → Bool
  | _, [] => true
  | lo, (k, _) :: m => decide (lo ≤ k) && Memory.risingFrom (k + 1) m

/-- The canonical form: addresses strictly rising, and only bytes of registers the block writes are listed
(20_memory.md R77, R83, R84). -/
def Memory.wf (m : Memory) : Bool := Memory.risingFrom 0 m && m.all fun c => writtenAddr c.1

/-! ## The environment's draws (10_state.md R55; log 4) -/

/-- The next draw: what the host supplied, else a free value. -/
def State.draw (s : State) : Draw :=
  match s.tape with
  | d :: _ => d
  | [] => Config.oracle s.drawn

/-- The state after a draw. -/
def State.afterDraw (s : State) : State := { s with tape := s.tape.tail, drawn := s.drawn + 1 }

/-! ## Updates -/

/-- The block's cells replaced. -/
def State.setBlock (s : State) (b : Block) : State := { s with block := b }
/-- The device's known registers replaced. -/
def State.setDevice (s : State) (m : Memory) : State := { s with device := m }
/-- The result handed to the caller (60_exceptions.md R420). -/
def State.setResult (s : State) (r : OpResult) : State := { s with result := some r }
/-- One more transaction seen by the device, after all the earlier ones (20_memory.md R85). -/
def State.log (s : State) (t : Transaction) : State := { s with bus := s.bus ++ [t] }
/-- The caller's index past the operation that returned (10_state.md R31). -/
def State.advance (s : State) : State := { s with index := s.index + 1 }

/-- `S.slot[0] <- w` (42_pdo_rdo_registers.md R285, R286). -/
def Block.setLastRdo (b : Block) (w : Option Word) : Block := { b with slot := b.slot.set 0 w }
/-- `S.status_snap <- v` (43_status_interrupt.md R320). -/
def Block.setStatus (b : Block) (v : Option Byte) : Block := { b with statusSnap := v }
/-- `S.v_snap <- v` (44_measure_threshold.md R350). -/
def Block.setVoltage (b : Block) (v : Option Byte) : Block := { b with vSnap := v }
/-- `S.i_snap <- v` (44_measure_threshold.md R351). -/
def Block.setCurrent (b : Block) (v : Option Byte) : Block := { b with iSnap := v }
/-- `S.t_snap <- v` (44_measure_threshold.md R352). -/
def Block.setTemp (b : Block) (v : Option Byte) : Block := { b with tSnap := v }

/-- Word `k` (0..6) of a table read (20_memory.md R71, 10_state.md R49). -/
def tableWord (t : Vector Byte 28) (k : Fin 7) : Word :=
  le32 (t[4 * k.val]) (t[4 * k.val + 1]) (t[4 * k.val + 2]) (t[4 * k.val + 3])

/-- `S.slot[1..7]` and `S.pdo_count` in one step, slot 0 kept (42_pdo_rdo_registers.md R280, 10_state.md R36). -/
def Block.setTable (b : Block) (t : Vector Byte 28) (n : Fin 8) : Block :=
  { b with
    slot := #v[b.slot[0], some (tableWord t 0), some (tableWord t 1), some (tableWord t 2), some (tableWord t 3),
      some (tableWord t 4), some (tableWord t 5), some (tableWord t 6)]
    pdoCount := some n }

/-- "any of { previous S.x, any u8 }" (43_status_interrupt.md R320, 44_measure_threshold.md R350 to R352): what a failed
snapshot read leaves in the cell. -/
def snapAfterFail (d : Draw) (previous : Option Byte) : Option Byte :=
  match d.snap with
  | none => previous
  | some b => some b

/-- "any of { previous S.slot[0], w }" (42_pdo_rdo_registers.md R285, R286): what a failed request write leaves. -/
def slotAfterFail (d : Draw) (previous : Option Word) (w : Word) : Option Word :=
  if d.sent then some w else previous

/-! ## How an operation ends (00_scope.md R15, 60_exceptions.md R420, R429) -/

/-- `return v`: the operation ends and returns `Ok(v)`. -/
def State.ret (s : State) (v : Value) : Host.Outcome State Fault Refusal := .next (s.setResult (.ok v))

/-- `raise E`: the operation ends now and returns `Err(E)`, keeping the state writes already made. There is no trap:
this is the whole of taking an error, and the caller's next operation starts from the state left (R420, R429, R431). -/
def State.raise (s : State) (e : Err) : Host.Outcome State Fault Refusal := .next (s.setResult (.err e))

/-- The code of an error (60_exceptions.md R421). -/
def errorCode : Err → Nat
  | .transportFailure => 1
  | .invalidPosition _ => 2
  | .variantMismatch _ => 3
  | .argumentOutOfRange _ => 4

/-- The value an error records: the index, the position or the argument (60_exceptions.md R421). -/
def errorValue : Err → Option Nat
  | .transportFailure => none
  | .invalidPosition i => some i
  | .variantMismatch p => some p
  | .argumentOutOfRange x => some x

/-- `S.x`: the value of a cell; the fault `Unwritten(x)` where it holds `none` (60_exceptions.md R425). -/
def needCell {α : Type} (c : BlockCell) (x : Option α) (k : α → Host.Outcome State Fault Refusal) :
    Host.Outcome State Fault Refusal :=
  match x with
  | none => .fault (.unwritten c)
  | some v => k v

/-! ## The transport (20_memory.md R80 to R85) -/

/-- The byte a successful read returns for address `a` as its byte `j`: a configuration register returns what it is
known to hold (R83), every other byte is drawn (R84). -/
def State.returned (s : State) (a : Nat) (drawn : Byte) : Byte :=
  if configAddr a then (Memory.read s.device a).getD drawn else drawn

/-- The bytes a successful read of `n` bytes from `a` returns: exactly `n` (R80). -/
def State.readBytes (s : State) (a : RegAddr) (n : Nat) (h : n ≤ 28) : Vector Byte n :=
  Vector.ofFn fun j => s.returned (a.toNat + j.val) (s.draw.bytes[j.val]'(by have := j.isLt; unfold Config.tableBytes; omega))

/-- `MemRead(a, n)`: one read transaction; the bytes, or nothing on failure (R80). -/
def State.memRead (s : State) (a : RegAddr) (n : Nat) (h : n ≤ 28 := by decide) : Option (Vector Byte n) × State :=
  let answer := if s.draw.ok then some (s.readBytes a n h) else none
  (answer, s.afterDraw.log (.read s.params.devAddr a n (answer.map Vector.toList)))

/-- `MemWrite(a, n, v)`: one write transaction of the bytes of `v`; whether it succeeded (R80). The device's register
holds the bytes after a success and is unknown after a failure (R80, R83; 92_eei_decisions.md D3). -/
def State.memWrite (s : State) (a : RegAddr) (bytes : List Byte) : Bool × State :=
  (s.draw.ok,
    (s.afterDraw.log (.write s.params.devAddr a bytes s.draw.ok)).setDevice
      (if s.draw.ok then Memory.writeBytes s.device a.toNat bytes
       else Memory.forgetBytes s.device a.toNat bytes.length))

/-- `Probe()`: one zero-length transaction; whether the device acknowledged. It changes no register (R81). -/
def State.probe (s : State) : Bool × State :=
  (s.draw.ok, s.afterDraw.log (.probe s.params.devAddr s.draw.ok))

/-- `IntPin()`: the level of the interrupt pin, a draw and no transaction (43_status_interrupt.md R325). -/
def State.intPin (s : State) : Bool × State := (s.draw.level, s.afterDraw)

/-! ## Shapes shared by several operations -/

/-- A read of `n` bytes whose failure writes no block state (60_exceptions.md R422). -/
def readThen (a : RegAddr) (n : Nat) (h : n ≤ 28) (k : Vector Byte n → State → Host.Outcome State Fault Refusal)
    (s : State) : Host.Outcome State Fault Refusal :=
  match s.memRead a n h with
  | (some b, t) => k b t
  | (none, t) => t.raise .transportFailure

/-- A one-byte read into a snapshot cell. On success the cell takes the byte; on failure it keeps its value or takes any
byte, and the operation raises TransportFailure (43_status_interrupt.md R320, 44_measure_threshold.md R350 to R352). -/
def snapshotRead (a : RegAddr) (get : Block → Option Byte) (set : Block → Option Byte → Block)
    (k : Byte → Value) (s : State) : Host.Outcome State Fault Refusal :=
  match s.memRead a 1 with
  | (some b, t) => (t.setBlock (set t.block (some b[0]))).ret (k b[0])
  | (none, t) => (t.setBlock (set t.block (snapAfterFail s.draw (get t.block)))).raise .transportFailure

/-- One write of a configuration register, then `unit`; its failure writes no block state (60_exceptions.md R422). -/
def configWrite (a : RegAddr) (bytes : List Byte) (s : State) : Host.Outcome State Fault Refusal :=
  match s.memWrite a bytes with
  | (true, t) => t.ret .unit
  | (false, t) => t.raise .transportFailure

/-- One write of the request register. On success slot 0 holds the word; on failure the old or the new one
(42_pdo_rdo_registers.md R285, R286). -/
def requestWrite (w : Word) (s : State) : Host.Outcome State Fault Refusal :=
  match s.memWrite 0x30#8 (bytesLe32 w) with
  | (true, t) => (t.setBlock (t.block.setLastRdo (some w))).ret .unit
  | (false, t) =>
    (t.setBlock (t.block.setLastRdo (slotAfterFail s.draw (t.block.slot[0]) w))).raise .transportFailure

/-- A list of configuration writes in order, the first failure ending the operation (45_device_control.md R401,
20_memory.md R82). -/
def configWrites : List (RegAddr × Byte) → State → Host.Outcome State Fault Refusal
  | [], s => s.ret .unit
  | (a, b) :: rest, s =>
    match s.memWrite a [b] with
    | (true, t) => configWrites rest t
    | (false, t) => t.raise .transportFailure

/-! ## The caller's program (10_state.md R31) -/

/-- The call at the caller's index, nothing where the program has none there. -/
def State.fetch (s : State) : Option Call := s.program[s.index]?

end Sys2Proof.Machine
end

