-- ==== Sys2Proof/Machine/DeviceControl.lean ====
section
/-! DEFINITION. The presence probe and the initialisation (45_device_control.md). -/

namespace Sys2Proof.Machine

/-- IS_PRESENT (45_device_control.md R400): a failed probe is the answer false, not an error. -/
def execIsPresent (s : State) : Host.Outcome State Fault Refusal :=
  s.probe.2.ret (.bool s.probe.1)

/-- The configuration INIT writes, in its order (45_device_control.md R401, R402). -/
def initWrites (p : Params) : List (RegAddr × Byte) :=
  [(0x1E#8, p.maskInit), (0x23#8, p.ocpInit), (0x24#8, p.otpInit), (0x25#8, p.drInit)]

/-- INIT (45_device_control.md R401). -/
def execInit (s : State) : Host.Outcome State Fault Refusal := configWrites (initWrites s.params) s

end Sys2Proof.Machine
end

