-- ==== Sys2Proof/Machine/MeasureThreshold.lean ====
section
/-! DEFINITION. Measurements, protection thresholds and NTC calibration (44_measure_threshold.md). -/

namespace Sys2Proof.Machine

/-- READ_VOLTAGE (44_measure_threshold.md R350). -/
def execReadVoltage (s : State) : Host.Outcome State Fault Refusal :=
  snapshotRead 0x20#8 Block.vSnap Block.setVoltage (fun b => .milliVolt (voltageOf b)) s

/-- READ_CURRENT (44_measure_threshold.md R351): with a shunt other than the default one the physical result is the
draw's free amount, the snapshot still the raw byte. -/
def execReadCurrent (s : State) : Host.Outcome State Fault Refusal :=
  snapshotRead 0x21#8 Block.iSnap Block.setCurrent
    (fun b => .milliAmp (currentOf s.params.shuntDefault b s.draw.amount)) s

/-- READ_TEMP (44_measure_threshold.md R352). -/
def execReadTemp (s : State) : Host.Outcome State Fault Refusal :=
  snapshotRead 0x22#8 Block.tSnap Block.setTemp (fun b => .celsius (signedByte b)) s

/-- GET_LAST_VOLTAGE (44_measure_threshold.md R353). -/
def execGetLastVoltage (s : State) : Host.Outcome State Fault Refusal :=
  needCell .vSnap s.block.vSnap fun b => s.ret (.milliVolt (voltageOf b))

/-- GET_LAST_CURRENT (44_measure_threshold.md R354): a draw is made only where the scale is not known. -/
def execGetLastCurrent (s : State) : Host.Outcome State Fault Refusal :=
  needCell .iSnap s.block.iSnap fun b =>
    (if s.params.shuntDefault then s else s.afterDraw).ret
      (.milliAmp (currentOf s.params.shuntDefault b s.draw.amount))

/-- GET_LAST_TEMP (44_measure_threshold.md R355). -/
def execGetLastTemp (s : State) : Host.Outcome State Fault Refusal :=
  needCell .tSnap s.block.tSnap fun b => s.ret (.celsius (signedByte b))

/-- SET_OCP mA (44_measure_threshold.md R356): refused above 12799 before any transaction. -/
def execSetOcp (mA : Nat) (s : State) : Host.Outcome State Fault Refusal :=
  if 12799 < mA then s.raise (.argumentOutOfRange mA) else configWrite 0x23#8 [ocpRaw mA] s

/-- GET_OCP (44_measure_threshold.md R357). -/
def execGetOcp (s : State) : Host.Outcome State Fault Refusal :=
  readThen 0x23#8 1 (by decide) (fun b t => t.ret (.milliAmp (ocpOf b[0]))) s

/-- A temperature threshold of one byte, refused above 255 before any transaction (44_measure_threshold.md R358, R360). -/
def setDegrees (a : RegAddr) (c : Nat) (s : State) : Host.Outcome State Fault Refusal :=
  if 255 < c then s.raise (.argumentOutOfRange c) else configWrite a [BitVec.ofNat 8 c] s

/-- A temperature threshold read (44_measure_threshold.md R359, R361). -/
def getDegrees (a : RegAddr) (s : State) : Host.Outcome State Fault Refusal :=
  readThen a 1 (by decide) (fun b t => t.ret (.degrees (degreesOf b[0]))) s

/-- SET_OTP c (44_measure_threshold.md R358). -/
def execSetOtp (c : Nat) (s : State) : Host.Outcome State Fault Refusal := setDegrees 0x24#8 c s

/-- GET_OTP (44_measure_threshold.md R359). -/
def execGetOtp (s : State) : Host.Outcome State Fault Refusal := getDegrees 0x24#8 s

/-- SET_DR c (44_measure_threshold.md R360). -/
def execSetDr (c : Nat) (s : State) : Host.Outcome State Fault Refusal := setDegrees 0x25#8 c s

/-- GET_DR (44_measure_threshold.md R361). -/
def execGetDr (s : State) : Host.Outcome State Fault Refusal := getDegrees 0x25#8 s

/-- SET_NTC k, ohm (44_measure_threshold.md R362): the point is checked first, then the resistance, then the write. -/
def execSetNtc (k ohm : Nat) (s : State) : Host.Outcome State Fault Refusal :=
  match ntcAddr k with
  | none => s.raise (.argumentOutOfRange k)
  | some a =>
    if 65535 < ohm then s.raise (.argumentOutOfRange ohm)
    else configWrite a (bytesLe16 (BitVec.ofNat 16 ohm)) s

/-- GET_NTC k (44_measure_threshold.md R363). -/
def execGetNtc (k : Nat) (s : State) : Host.Outcome State Fault Refusal :=
  match ntcAddr k with
  | none => s.raise (.argumentOutOfRange k)
  | some a => readThen a 2 (by decide) (fun b t => t.ret (.ohm (le16 b[0] b[1]).toNat)) s

end Sys2Proof.Machine
end

