-- ==== Sys2Proof/Machine/PdoDecoder.lean ====
section
/-! DEFINITION. DECODE_PDO, one meaning per form (40_pdo_decoder.md R200 to R206). Every form returns DECODE_PDO of its
word, which dispatches on the word's own tag: "a decoder must never assume a fixed variant" (30_encoding.md R113). -/

namespace Sys2Proof.Machine

/-- `return DECODE_PDO(w)` (40_pdo_decoder.md R200): no transaction, no state written, no error (R208). -/
def returnPdo (w : Word) (s : State) : Host.Outcome State Fault Refusal := s.ret (.pdo (decodePdo s.params.layout w))

/-- DECODE_PDO, Fixed form (40_pdo_decoder.md R201). -/
def execDecodePdoFixed (w : Word) (s : State) : Host.Outcome State Fault Refusal := returnPdo w s

/-- DECODE_PDO, Battery form (40_pdo_decoder.md R202). -/
def execDecodePdoBattery (w : Word) (s : State) : Host.Outcome State Fault Refusal := returnPdo w s

/-- DECODE_PDO, Variable form (40_pdo_decoder.md R203). -/
def execDecodePdoVariable (w : Word) (s : State) : Host.Outcome State Fault Refusal := returnPdo w s

/-- DECODE_PDO, PPS form (40_pdo_decoder.md R204). -/
def execDecodePdoPps (w : Word) (s : State) : Host.Outcome State Fault Refusal := returnPdo w s

/-- DECODE_PDO, EPR_AVS form (40_pdo_decoder.md R205). -/
def execDecodePdoEprAvs (w : Word) (s : State) : Host.Outcome State Fault Refusal := returnPdo w s

/-- DECODE_PDO, Opaque form (40_pdo_decoder.md R206). -/
def execDecodePdoOpaque (w : Word) (s : State) : Host.Outcome State Fault Refusal := returnPdo w s

end Sys2Proof.Machine
end

