-- ==== Sys2Proof/Machine/PdoRdoRegisters.lean ====
section
/-! DEFINITION. The PDO table and the request register (42_pdo_rdo_registers.md). -/

namespace Sys2Proof.Machine

/-- REFRESH_PDOS (42_pdo_rdo_registers.md R280, R281): the table read, then the count read; both are committed in one
step, or nothing is. -/
def execRefreshPdos (s : State) : Host.Outcome State Fault Refusal :=
  readThen 0x00#8 28 (by decide) (fun t s1 =>
    readThen 0x1C#8 1 (by decide) (fun n s2 =>
      (s2.setBlock (s2.block.setTable t (countOf n[0]))).ret .unit) s1) s

/-- GET_PDO_CNT (42_pdo_rdo_registers.md R282). -/
def execGetPdoCnt (s : State) : Host.Outcome State Fault Refusal :=
  needCell .pdoCount s.block.pdoCount fun n => s.ret (.count n.val)

/-- GET_PDO i (42_pdo_rdo_registers.md R283): the checks on i alone come first, then the read of the count (R430). -/
def execGetPdo (i : Nat) (s : State) : Host.Outcome State Fault Refusal :=
  if h : i = 0 ∨ 7 < i then s.raise (.invalidPosition i)
  else
    needCell .pdoCount s.block.pdoCount fun n =>
      if n.val < i then s.raise (.invalidPosition i)
      else needCell (.slot ⟨i, by omega⟩) (s.block.slot[i]) fun w => s.ret (.pdo (decodePdo s.params.layout w))

/-- GET_LAST_RDO (42_pdo_rdo_registers.md R284): the raw word, not decoded. -/
def execGetLastRdo (s : State) : Host.Outcome State Fault Refusal :=
  needCell (.slot 0) (s.block.slot[0]) fun w => s.ret (.word w)

/-- WRITE_RDO r (42_pdo_rdo_registers.md R285): position against the count, variant against the targeted PDO, then the
write; the operating point is not checked and not clamped (41_rdo_codec.md R250). -/
def execWriteRdo (r : Rdo) (s : State) : Host.Outcome State Fault Refusal :=
  needCell .pdoCount s.block.pdoCount fun n =>
    let p := (hdrOf r).objPos.bits.toNat
    if h : n.val < p then s.raise (.invalidPosition p)
    else
      needCell (.slot ⟨p, by omega⟩) (s.block.slot[p]'(by omega)) fun w =>
        if matchesRdo (decodePdo s.params.layout w) r then requestWrite (encodeRdo s.params.layout r) s
        else s.raise (.variantMismatch p)

/-- RESET_RDO (42_pdo_rdo_registers.md R286): the all-zero sentinel, no check. -/
def execResetRdo (s : State) : Host.Outcome State Fault Refusal := requestWrite 0#32 s

end Sys2Proof.Machine
end

