-- ==== Sys2Proof/Machine/RdoCodec.lean ====
section
/-! DEFINITION. ENCODE_RDO, DECODE_RDO and CHECK_RDO (41_rdo_codec.md): pure operations, no transaction, no block state
written. -/

namespace Sys2Proof.Machine

/-- ENCODE_RDO, Fixed form (41_rdo_codec.md R241). -/
def execEncodeRdoFixed (r : FixedRdo) (s : State) : Host.Outcome State Fault Refusal :=
  s.ret (.word (encodeFixedRdo s.params.layout r))

/-- ENCODE_RDO, Battery form (41_rdo_codec.md R242). -/
def execEncodeRdoBattery (r : BatteryRdo) (s : State) : Host.Outcome State Fault Refusal :=
  s.ret (.word (encodeBatteryRdo s.params.layout r))

/-- ENCODE_RDO, PPS form (41_rdo_codec.md R243). -/
def execEncodeRdoPps (r : PpsRdo) (s : State) : Host.Outcome State Fault Refusal :=
  s.ret (.word (encodePpsRdo s.params.layout r))

/-- ENCODE_RDO, AVS form (41_rdo_codec.md R244). -/
def execEncodeRdoAvs (r : AvsRdo) (s : State) : Host.Outcome State Fault Refusal :=
  s.ret (.word (encodeAvsRdo s.params.layout r))

/-- `DECODE_RDO(k, w)`: the request, or `InvalidPosition(0)` where the position field is 0 (41_rdo_codec.md R246). -/
def returnRdo (k : RdoKind) (w : Word) (s : State) : Host.Outcome State Fault Refusal :=
  match decodeRdo s.params.layout k w with
  | some r => s.ret (.rdo r)
  | none => s.raise (.invalidPosition 0)

/-- DECODE_RDO, kind Fixed (41_rdo_codec.md R246). -/
def execDecodeRdoFixed (w : Word) (s : State) : Host.Outcome State Fault Refusal := returnRdo .fixed w s

/-- DECODE_RDO, kind Battery (41_rdo_codec.md R246). -/
def execDecodeRdoBattery (w : Word) (s : State) : Host.Outcome State Fault Refusal := returnRdo .battery w s

/-- DECODE_RDO, kind PPS (41_rdo_codec.md R246). -/
def execDecodeRdoPps (w : Word) (s : State) : Host.Outcome State Fault Refusal := returnRdo .pps w s

/-- DECODE_RDO, kind AVS (41_rdo_codec.md R246). -/
def execDecodeRdoAvs (w : Word) (s : State) : Host.Outcome State Fault Refusal := returnRdo .avs w s

/-- CHECK_RDO p, r (41_rdo_codec.md R248, R249): a boolean, never an error. -/
def execCheckRdo (p : Pdo) (r : Rdo) (s : State) : Host.Outcome State Fault Refusal := s.ret (.bool (checkRdo p r))

end Sys2Proof.Machine
end

