-- ==== Sys2Proof/Machine/StatusInterrupt.lean ====
section
/-! DEFINITION. The status snapshot, the interrupt mask and the interrupt poll (43_status_interrupt.md). -/

namespace Sys2Proof.Machine

/-- READ_STATUS (43_status_interrupt.md R320). -/
def execReadStatus (s : State) : Host.Outcome State Fault Refusal :=
  snapshotRead 0x1D#8 Block.statusSnap Block.setStatus Value.byte s

/-- GET_STATUS (43_status_interrupt.md R321). -/
def execGetStatus (s : State) : Host.Outcome State Fault Refusal :=
  needCell .statusSnap s.block.statusSnap fun b => s.ret (.byte b)

/-- DECODE_STATUS b (43_status_interrupt.md R322). -/
def execDecodeStatus (b : Byte) (s : State) : Host.Outcome State Fault Refusal := s.ret (.status (statusFlags b))

/-- SET_MASK m (43_status_interrupt.md R323): every byte is written as given. -/
def execSetMask (m : Byte) (s : State) : Host.Outcome State Fault Refusal := configWrite 0x1E#8 [m] s

/-- GET_MASK (43_status_interrupt.md R324). -/
def execGetMask (s : State) : Host.Outcome State Fault Refusal :=
  readThen 0x1E#8 1 (by decide) (fun b t => t.ret (.byte b[0])) s

/-- POLL_INT (43_status_interrupt.md R325): the pin's level, a free draw; no other state changes. -/
def execPollInt (s : State) : Host.Outcome State Fault Refusal :=
  s.intPin.2.ret (.bool s.intPin.1)

end Sys2Proof.Machine
end

