-- ==== Sys2Proof/Machine/Dispatch.lean ====
section
/-! DEFINITION. The dispatch: one arm per constructor of Instr, each one call of its meaning. -/

namespace Sys2Proof.Machine

def exec (i : Instr) (s : State) : Host.Outcome State Fault Refusal :=
  match i with
  | .decodePdoFixed w => Sys2Proof.Machine.execDecodePdoFixed w s
  | .decodePdoBattery w => Sys2Proof.Machine.execDecodePdoBattery w s
  | .decodePdoVariable w => Sys2Proof.Machine.execDecodePdoVariable w s
  | .decodePdoPps w => Sys2Proof.Machine.execDecodePdoPps w s
  | .decodePdoEprAvs w => Sys2Proof.Machine.execDecodePdoEprAvs w s
  | .decodePdoOpaque w => Sys2Proof.Machine.execDecodePdoOpaque w s
  | .encodeRdoFixed r => Sys2Proof.Machine.execEncodeRdoFixed r s
  | .encodeRdoBattery r => Sys2Proof.Machine.execEncodeRdoBattery r s
  | .encodeRdoPps r => Sys2Proof.Machine.execEncodeRdoPps r s
  | .encodeRdoAvs r => Sys2Proof.Machine.execEncodeRdoAvs r s
  | .decodeRdoFixed w => Sys2Proof.Machine.execDecodeRdoFixed w s
  | .decodeRdoBattery w => Sys2Proof.Machine.execDecodeRdoBattery w s
  | .decodeRdoPps w => Sys2Proof.Machine.execDecodeRdoPps w s
  | .decodeRdoAvs w => Sys2Proof.Machine.execDecodeRdoAvs w s
  | .checkRdo p r => Sys2Proof.Machine.execCheckRdo p r s
  | .decodeStatus b => Sys2Proof.Machine.execDecodeStatus b s
  | .refreshPdos => Sys2Proof.Machine.execRefreshPdos s
  | .writeRdo r => Sys2Proof.Machine.execWriteRdo r s
  | .resetRdo => Sys2Proof.Machine.execResetRdo s
  | .readStatus => Sys2Proof.Machine.execReadStatus s
  | .setMask m => Sys2Proof.Machine.execSetMask m s
  | .getMask => Sys2Proof.Machine.execGetMask s
  | .readVoltage => Sys2Proof.Machine.execReadVoltage s
  | .readCurrent => Sys2Proof.Machine.execReadCurrent s
  | .readTemp => Sys2Proof.Machine.execReadTemp s
  | .setOcp mA => Sys2Proof.Machine.execSetOcp mA s
  | .getOcp => Sys2Proof.Machine.execGetOcp s
  | .setOtp c => Sys2Proof.Machine.execSetOtp c s
  | .getOtp => Sys2Proof.Machine.execGetOtp s
  | .setDr c => Sys2Proof.Machine.execSetDr c s
  | .getDr => Sys2Proof.Machine.execGetDr s
  | .setNtc k ohm => Sys2Proof.Machine.execSetNtc k ohm s
  | .getNtc k => Sys2Proof.Machine.execGetNtc k s
  | .isPresent => Sys2Proof.Machine.execIsPresent s
  | .init => Sys2Proof.Machine.execInit s
  | .getPdoCnt => Sys2Proof.Machine.execGetPdoCnt s
  | .getPdo k => Sys2Proof.Machine.execGetPdo k s
  | .getLastRdo => Sys2Proof.Machine.execGetLastRdo s
  | .getStatus => Sys2Proof.Machine.execGetStatus s
  | .getLastVoltage => Sys2Proof.Machine.execGetLastVoltage s
  | .getLastCurrent => Sys2Proof.Machine.execGetLastCurrent s
  | .getLastTemp => Sys2Proof.Machine.execGetLastTemp s
  | .pollInt => Sys2Proof.Machine.execPollInt s

end Sys2Proof.Machine
end

