-- ==== Sys2Proof/Machine/Step.lean ====
section
/-! DEFINITION. One step: the caller issues the call at its index, the block performs it to completion, the index
advances (10_state.md R31; 20_memory.md R85; 70_reset_and_hazards.md R470). -/

namespace Sys2Proof.Machine

/-- One step. Where the caller issues no call the block waits (70_reset_and_hazards.md R460; log 14). A call that is no
operation is refused by name (log 8). After an operation returns, whatever its result, the index advances by one
(10_state.md R31); the fault Unwritten ends the run (60_exceptions.md R425). -/
def step (s : State) : Host.Outcome State Fault Refusal :=
  match s.fetch with
  | none => .next s
  | some c =>
    match decode s.params.layout c with
    | .error e => .refused (.malformedCall e)
    | .ok i =>
      match exec i s with
      | .next t => .next t.advance
      | .fault f => .fault f
      | .refused r => .refused r

/-- The state in which the caller's program is the one call a table word stands for, so that the next step issues it
(logs 2, 12). Nothing else changes. -/
def State.withFetchWord (s : State) (nbits w : Nat) : State :=
  { s with program := [callOfTableWord nbits w], index := 0 }

end Sys2Proof.Machine
end

