-- ==== Sys2Proof/Safety.lean ====
section
/-! DEFINITION. What counts as a good state and a good run, in the terms the statements use: the invariant of the slot
file and of the device memory, which registers an operation writes, which transactions exist, and a run of operations. -/

namespace Sys2Proof.Machine

/-- The pairing invariant (10_state.md R36): slots 1..7 and the count all hold `none`, or all hold values. -/
def Block.paired (b : Block) : Bool :=
  (b.slot[1].isSome == b.pdoCount.isSome) && (b.slot[2].isSome == b.pdoCount.isSome)
    && (b.slot[3].isSome == b.pdoCount.isSome) && (b.slot[4].isSome == b.pdoCount.isSome)
    && (b.slot[5].isSome == b.pdoCount.isSome) && (b.slot[6].isSome == b.pdoCount.isSome)
    && (b.slot[7].isSome == b.pdoCount.isSome)

/-- A byte is known. -/
def Memory.known (m : Memory) (a : Nat) : Bool := (Memory.read m a).isSome

/-- Registers of more than one byte are known whole or not at all (20_memory.md R74, R78). -/
def Memory.whole (m : Memory) : Bool :=
  (Memory.known m 0x28 == Memory.known m 0x29) && (Memory.known m 0x2A == Memory.known m 0x2B)
    && (Memory.known m 0x2C == Memory.known m 0x2D) && (Memory.known m 0x2E == Memory.known m 0x2F)
    && (Memory.known m 0x30 == Memory.known m 0x31) && (Memory.known m 0x30 == Memory.known m 0x32)
    && (Memory.known m 0x30 == Memory.known m 0x33)

/-- The invariant of the machine: table and count are paired, the device memory is in canonical form, and its registers
are whole. -/
def State.Inv (s : State) : Prop :=
  s.block.paired = true ∧ Memory.wf s.device = true ∧ Memory.whole s.device = true

/-- Every cell of the block holds a value: the bring-up of 70_reset_and_hazards.md R462 is done. -/
def Block.filled (b : Block) : Bool :=
  b.slot.toList.all Option.isSome && b.pdoCount.isSome && b.statusSnap.isSome && b.vSnap.isSome && b.iSnap.isSome
    && b.tSnap.isSome

/-- A cell of the block holds a value. -/
def Block.holds (b : Block) (c : BlockCell) : Bool :=
  match c with
  | .slot i => (b.slot[i.val]).isSome
  | .pdoCount => b.pdoCount.isSome
  | .statusSnap => b.statusSnap.isSome
  | .vSnap => b.vSnap.isSome
  | .iSnap => b.iSnap.isSome
  | .tSnap => b.tSnap.isSome

/-- The bits that the layout of a kind reserves: those that no field covers (30_encoding.md R123 to R126, R128). -/
def reservedBits (l : Layout) (k : RdoKind) : Word :=
  ~~~((l.rdoFields k).foldr (fun f m => fieldMask f.1 f.2 ||| m) 0#32)

/-- The operation may write the device byte at `a` (20_memory.md R77). -/
def writesTo (i : Instr) (a : Nat) : Bool :=
  match i with
  | .setMask _ => a == 0x1E
  | .setOcp _ => a == 0x23
  | .setOtp _ => a == 0x24
  | .setDr _ => a == 0x25
  | .setNtc k _ =>
    match ntcAddr k with
    | some b => decide (b.toNat ≤ a) && decide (a < b.toNat + 2)
    | none => false
  | .init => a == 0x1E || a == 0x23 || a == 0x24 || a == 0x25
  | .writeRdo _ => requestAddr a
  | .resetRdo => requestAddr a
  | .decodePdoFixed _ | .decodePdoBattery _ | .decodePdoVariable _ | .decodePdoPps _ | .decodePdoEprAvs _ => false
  | .decodePdoOpaque _ | .encodeRdoFixed _ | .encodeRdoBattery _ | .encodeRdoPps _ | .encodeRdoAvs _ => false
  | .decodeRdoFixed _ | .decodeRdoBattery _ | .decodeRdoPps _ | .decodeRdoAvs _ | .checkRdo _ _ => false
  | .decodeStatus _ | .refreshPdos | .readStatus | .getMask | .readVoltage | .readCurrent | .readTemp => false
  | .getOcp | .getOtp | .getDr | .getNtc _ | .isPresent => false
  | .getPdoCnt | .getPdo _ | .getLastRdo | .getStatus => false
  | .getLastVoltage | .getLastCurrent | .getLastTemp | .pollInt => false

/-- The operation issues transactions (30_encoding.md R135, kind "register"). -/
def usesTransport (i : Instr) : Bool :=
  match i with
  | .refreshPdos | .writeRdo _ | .resetRdo | .readStatus | .setMask _ | .getMask => true
  | .readVoltage | .readCurrent | .readTemp => true
  | .setOcp _ | .getOcp | .setOtp _ | .getOtp | .setDr _ | .getDr | .setNtc _ _ | .getNtc _ => true
  | .isPresent | .init => true
  | .decodePdoFixed _ | .decodePdoBattery _ | .decodePdoVariable _ | .decodePdoPps _ | .decodePdoEprAvs _ => false
  | .decodePdoOpaque _ | .encodeRdoFixed _ | .encodeRdoBattery _ | .encodeRdoPps _ | .encodeRdoAvs _ => false
  | .decodeRdoFixed _ | .decodeRdoBattery _ | .decodeRdoPps _ | .decodeRdoAvs _ | .checkRdo _ _ => false
  | .decodeStatus _ => false
  | .getPdoCnt | .getPdo _ | .getLastRdo | .getStatus => false
  | .getLastVoltage | .getLastCurrent | .getLastTemp | .pollInt => false

/-- The transport reported success, or the device acknowledged. -/
def Transaction.ok : Transaction → Bool
  | .read _ _ _ answer => answer.isSome
  | .write _ _ _ ok => ok
  | .probe _ ok => ok

/-- The reads of the address map: base and width (20_memory.md R77). -/
def mappedReads : List (RegAddr × Nat) :=
  [(0x00#8, 28), (0x1C#8, 1), (0x1D#8, 1), (0x1E#8, 1), (0x20#8, 1), (0x21#8, 1), (0x22#8, 1), (0x23#8, 1),
   (0x24#8, 1), (0x25#8, 1), (0x28#8, 2), (0x2A#8, 2), (0x2C#8, 2), (0x2E#8, 2)]

/-- The writes of the address map: base and width (20_memory.md R77). -/
def mappedWrites : List (RegAddr × Nat) :=
  [(0x1E#8, 1), (0x23#8, 1), (0x24#8, 1), (0x25#8, 1), (0x28#8, 2), (0x2A#8, 2), (0x2C#8, 2), (0x2E#8, 2),
   (0x30#8, 4)]

/-- A transaction of the address map, with its width and its direction, addressed to the device; an answer has exactly
the bytes asked for (20_memory.md R76 to R78, R80). -/
def Transaction.mapped (dev : BitVec 7) : Transaction → Bool
  | .read d a n answer =>
    d == dev && mappedReads.contains (a, n) && (match answer with | some b => b.length == n | none => true)
  | .write d a bytes _ => d == dev && mappedWrites.contains (a, bytes.length)
  | .probe d _ => d == dev

/-- Several operations in a row, each from the state the one before left (20_memory.md R85); a fault ends the run. -/
def runOps : List Instr → State → Host.Outcome State Fault Refusal
  | [], s => .next s
  | i :: rest, s =>
    match exec i s with
    | .next t => runOps rest t
    | .fault f => .fault f
    | .refused r => .refused r

end Sys2Proof.Machine
end

