-- ==== Sys2Proof/WellFormed.lean ====
section
/-! DEFINITION. Which terms of `Instr` are operation forms. Every operand already has its domain by its type
(30_encoding.md R138); what is left to check is that a DECODE_PDO form is the one its word selects (30_encoding.md R113). -/

namespace Sys2Proof

/-- The form is the one its operand selects under the layout (00_scope.md R10, parameter LAYOUT). -/
def Instr.wellFormed (l : Layout) : Instr → Bool
  | .decodePdoFixed w => Machine.variant l w == .fixed
  | .decodePdoBattery w => Machine.variant l w == .battery
  | .decodePdoVariable w => Machine.variant l w == .variableSupply
  | .decodePdoPps w => Machine.variant l w == .pps
  | .decodePdoEprAvs w => Machine.variant l w == .eprAvs
  | .decodePdoOpaque w => Machine.variant l w == .opaquePdo
  | .encodeRdoFixed _ | .encodeRdoBattery _ | .encodeRdoPps _ | .encodeRdoAvs _ => true
  | .decodeRdoFixed _ | .decodeRdoBattery _ | .decodeRdoPps _ | .decodeRdoAvs _ => true
  | .checkRdo _ _ | .decodeStatus _ => true
  | .refreshPdos | .writeRdo _ | .resetRdo | .readStatus | .setMask _ | .getMask => true
  | .readVoltage | .readCurrent | .readTemp => true
  | .setOcp _ | .getOcp | .setOtp _ | .getOtp | .setDr _ | .getDr | .setNtc _ _ | .getNtc _ => true
  | .isPresent | .init => true
  | .getPdoCnt | .getPdo _ | .getLastRdo | .getStatus => true
  | .getLastVoltage | .getLastCurrent | .getLastTemp | .pollInt => true

end Sys2Proof
end

