-- ==== Sys2Proof/Certificates/Slice0/Obligations.lean ====
section
/-! DEFINITION. The statements for the provers. Each docstring names the rule of spec/ that the statement formalises. A
statement about an operation gives the whole next state as an update of the state before, so that what the update does
not name is unchanged: the block's other cells, the device's known bytes, the parameters, the caller's program and
index. The state's draw is the environment's next answer; a statement for every state holds for every answer. -/

open Sys2Proof Sys2Proof.Machine

/-! ## Calls, decoding and the step -/

/-- Decode and encode agree on every well-formed operation form, with every operand at every value of its domain,
under every LAYOUT (30_encoding.md R135, R138; the form of a call is the model's, log 6). -/
def Obligations.DecodeOfEncodeGivesTheOperationBack : Prop :=
  ∀ (l : Layout) (i : Instr), i.wellFormed l = true → decode l (encode i) = .ok i

/-- A call has at most one meaning, and what the decoder gives is well formed, under every LAYOUT (30_encoding.md
R138, R113; the form of a call is the model's, log 6). -/
def Obligations.EncodeOfDecodeGivesTheCallBack : Prop :=
  ∀ (l : Layout) (c : Call) (i : Instr), decode l c = .ok i → encode i = c ∧ i.wellFormed l = true

/-- Words written out from the layouts of 30_encoding.md R114 to R119 and R132 decode to the form they stand for. That
a 32-bit word stands for a DECODE_PDO call and an 8-bit word for a DECODE_STATUS call is the model's choice (log 12);
the positions and tag values are the default of the parameter LAYOUT, presumed (log 7; 92_eei_decisions.md D1). -/
def Obligations.WrittenOutWordsDecodeToTheirForms : Prop :=
  decodeTableWord 32 0b00001010000000011001000100101100 = some (.decodePdoFixed 0x0A01912C#32) ∧
  decodeTableWord 32 0b01011010010001001011000110010000 = some (.decodePdoBattery 0x5A44B190#32) ∧
  decodeTableWord 32 0b10011010010000011001000011001000 = some (.decodePdoVariable 0x9A4190C8#32) ∧
  decodeTableWord 32 0b11000000110111000010000100111100 = some (.decodePdoPps 0xC0DC213C#32) ∧
  decodeTableWord 32 0b11010010001100001001011010001100 = some (.decodePdoEprAvs 0xD230968C#32) ∧
  decodeTableWord 32 0b11100000000000000001001000110100 = some (.decodePdoOpaque 0xE0001234#32) ∧
  decodeTableWord 8 0b10000001 = some (.decodeStatus 0x81#8)

/-- A step issues the call at the caller's index and runs the operation it decodes to under the state's LAYOUT; the
index then moves past it (10_state.md R31). A program as a list and an index is the spec's own decision D2
(92_eei_decisions.md), the fields that hold them are the model's (log 2). -/
def Obligations.StepRunsTheDecodedOperation : Prop :=
  ∀ (s : State) (c : Call) (i : Instr), s.program[s.index]? = some c → decode s.params.layout c = .ok i →
    step s = (match exec i s with
      | .next t => .next { t with index := t.index + 1 }
      | .fault f => .fault f
      | .refused r => .refused r)

/-- The index advances by one after each operation returns, whatever its result; the program and the parameters never
change (10_state.md R31, R55). A program as a list and an index is the spec's own decision D2 (92_eei_decisions.md).
-/
def Obligations.IndexAdvancesByOneWhateverTheResult : Prop :=
  ∀ (s t : State), s.index < s.program.length → step s = .next t →
    t.index = s.index + 1 ∧ t.program = s.program ∧ t.params = s.params

/-- Where the caller has no call left the block waits (70_reset_and_hazards.md R460; the model's choice of a step that
changes nothing, log 14). A call that is no operation is refused by the name of its fault (30_encoding.md R138; log 8). -/
def Obligations.StepWaitsOrRefusesWithoutAnOperation : Prop :=
  ∀ s : State,
    (s.program[s.index]? = none → step s = .next s) ∧
    (∀ c e, s.program[s.index]? = some c → decode s.params.layout c = .error e → step s = .refused (.malformedCall e))

/-! ## PDO variant decoder -/

/-- Dispatch on the type tag, then on the power range (30_encoding.md R113), under the default LAYOUT. Its positions
and tag values are presumed: general knowledge in the spec, its own decision D1 (R111, R112; 92_eei_decisions.md; log
7). -/
def Obligations.VariantFollowsTypeTagAndPowerRange : Prop :=
  ∀ w : Word,
    (w >>> 30 = 0#32 → variant defaultLayout w = .fixed) ∧
    (w >>> 30 = 1#32 → variant defaultLayout w = .battery) ∧
    (w >>> 30 = 2#32 → variant defaultLayout w = .variableSupply) ∧
    (w >>> 28 = 12#32 → variant defaultLayout w = .pps) ∧
    (w >>> 28 = 13#32 → variant defaultLayout w = .eprAvs) ∧
    (w >>> 28 = 14#32 → variant defaultLayout w = .opaquePdo) ∧
    (w >>> 28 = 15#32 → variant defaultLayout w = .opaquePdo)

/-- DECODE_PDO returns the record of the word's variant under the state's LAYOUT, whatever its fields hold, and
changes nothing but the result (40_pdo_decoder.md R200, R208). Each of the six forms is stated for every word: that a
form whose word has another variant, which is ill formed, follows its word is the model's inference (log 15). -/
def Obligations.DecodePdoReturnsTheVariantRecord : Prop :=
  ∀ (w : Word) (s : State),
    (exec (.decodePdoFixed w) s = .next { s with result := some (.ok (.pdo (decodePdo s.params.layout w))) } ∧
     exec (.decodePdoBattery w) s = .next { s with result := some (.ok (.pdo (decodePdo s.params.layout w))) } ∧
     exec (.decodePdoVariable w) s = .next { s with result := some (.ok (.pdo (decodePdo s.params.layout w))) } ∧
     exec (.decodePdoPps w) s = .next { s with result := some (.ok (.pdo (decodePdo s.params.layout w))) } ∧
     exec (.decodePdoEprAvs w) s = .next { s with result := some (.ok (.pdo (decodePdo s.params.layout w))) } ∧
     exec (.decodePdoOpaque w) s = .next { s with result := some (.ok (.pdo (decodePdo s.params.layout w))) }) ∧
    decodePdo s.params.layout w =
      (match variant s.params.layout w with
       | .fixed => .fixed (decodeFixed s.params.layout w)
       | .battery => .battery (decodeBattery s.params.layout w)
       | .variableSupply => .variableSupply (decodeVariable s.params.layout w)
       | .pps => .pps (decodePps s.params.layout w)
       | .eprAvs => .eprAvs (decodeAvs s.params.layout w)
       | .opaquePdo => .opaquePdo w)

/-- Extraction law: each field of the decoded record is the shift-and-mask of the word at the field's place in the
layout of the word's variant (40_pdo_decoder.md R210, R201 to R205; 30_encoding.md R114 to R118), under the default
LAYOUT. Its positions are presumed, the spec's own decision D1 (92_eei_decisions.md; log 7). -/
def Obligations.PdoFieldsEqualShiftAndMask : Prop :=
  ∀ w : Word,
    (variant defaultLayout w = .fixed → decodePdo defaultLayout w = .fixed
      { dualRolePower := ((w >>> 29) &&& 1#32).setWidth 1
        usbSuspendSupported := ((w >>> 28) &&& 1#32).setWidth 1
        unconstrainedPower := ((w >>> 27) &&& 1#32).setWidth 1
        usbCommCapable := ((w >>> 26) &&& 1#32).setWidth 1
        dualRoleData := ((w >>> 25) &&& 1#32).setWidth 1
        unchunkedExtMsg := ((w >>> 24) &&& 1#32).setWidth 1
        eprCapable := ((w >>> 23) &&& 1#32).setWidth 1
        peakCurrent := ((w >>> 20) &&& 0x3#32).setWidth 2
        voltage := ((w >>> 10) &&& 0x3FF#32).setWidth 10
        maxCurrent := (w &&& 0x3FF#32).setWidth 10 }) ∧
    (variant defaultLayout w = .battery → decodePdo defaultLayout w = .battery
      { maxVoltage := ((w >>> 20) &&& 0x3FF#32).setWidth 10
        minVoltage := ((w >>> 10) &&& 0x3FF#32).setWidth 10
        maxPower := (w &&& 0x3FF#32).setWidth 10 }) ∧
    (variant defaultLayout w = .variableSupply → decodePdo defaultLayout w = .variableSupply
      { maxVoltage := ((w >>> 20) &&& 0x3FF#32).setWidth 10
        minVoltage := ((w >>> 10) &&& 0x3FF#32).setWidth 10
        maxCurrent := (w &&& 0x3FF#32).setWidth 10 }) ∧
    (variant defaultLayout w = .pps → decodePdo defaultLayout w = .pps
      { powerLimited := ((w >>> 27) &&& 1#32).setWidth 1
        maxVoltage := ((w >>> 17) &&& 0xFF#32).setWidth 8
        minVoltage := ((w >>> 8) &&& 0xFF#32).setWidth 8
        maxCurrent := (w &&& 0x7F#32).setWidth 7 }) ∧
    (variant defaultLayout w = .eprAvs → decodePdo defaultLayout w = .eprAvs
      { peakCurrent := ((w >>> 26) &&& 0x3#32).setWidth 2
        maxVoltage := ((w >>> 17) &&& 0x1FF#32).setWidth 9
        minVoltage := ((w >>> 8) &&& 0xFF#32).setWidth 8
        pdp := (w &&& 0xFF#32).setWidth 8 }) ∧
    (variant defaultLayout w = .opaquePdo → decodePdo defaultLayout w = .opaquePdo w)

/-- Two words that differ only in the reserved bits of their variant decode alike (30_encoding.md R128, decode part),
under the default LAYOUT. That reserved bits are ignored is the spec's own decision D13; which bits are reserved is
presumed with the positions, its decision D1 (92_eei_decisions.md; log 7). -/
def Obligations.ReservedPdoBitsAreIgnored : Prop :=
  ∀ w v : Word,
    (variant defaultLayout w = .fixed → w &&& 0xFFBFFFFF#32 = v &&& 0xFFBFFFFF#32 →
      decodePdo defaultLayout v = decodePdo defaultLayout w) ∧
    (variant defaultLayout w = .pps → w &&& 0xF9FEFF7F#32 = v &&& 0xF9FEFF7F#32 →
      decodePdo defaultLayout v = decodePdo defaultLayout w) ∧
    (variant defaultLayout w = .eprAvs → w &&& 0xFFFEFFFF#32 = v &&& 0xFFFEFFFF#32 →
      decodePdo defaultLayout v = decodePdo defaultLayout w)

/-- A word of a reserved tag combination decodes to the raw word, never an error, and no request matches it
(40_pdo_decoder.md R206, 30_encoding.md R127). That the three top bits 111 are the reserved combinations holds under
the default LAYOUT, whose positions and tag values are presumed, the spec's own decision D1 (92_eei_decisions.md; log
7). -/
def Obligations.OpaquePdoCarriesTheRawWord : Prop :=
  (∀ (w : Word) (s : State), variant s.params.layout w = .opaquePdo →
    exec (.decodePdoOpaque w) s = .next { s with result := some (.ok (.pdo (.opaquePdo w))) } ∧
    ∀ r : Rdo, matchesRdo (.opaquePdo w) r = false) ∧
  (∀ w : Word, w >>> 29 = 7#32 → variant defaultLayout w = .opaquePdo)

/-- The physical quantities of a decoded PDO are exact products, with the rule's largest values (40_pdo_decoder.md
R207). The largest values are the spec's own derivation. -/
def Obligations.PdoPhysicalValuesAreExactProducts : Prop :=
  (∀ p : FixedPdo, p.voltageMilliVolt = p.voltage.toNat * 50 ∧ p.voltageMilliVolt ≤ 51150 ∧
    p.maxCurrentMilliAmp = p.maxCurrent.toNat * 10 ∧ p.maxCurrentMilliAmp ≤ 10230) ∧
  (∀ p : BatteryPdo, p.minMilliVolt = p.minVoltage.toNat * 50 ∧ p.minMilliVolt ≤ 51150 ∧
    p.maxMilliVolt = p.maxVoltage.toNat * 50 ∧ p.maxMilliVolt ≤ 51150 ∧
    p.maxPowerMilliWatt = p.maxPower.toNat * 250 ∧ p.maxPowerMilliWatt ≤ 255750) ∧
  (∀ p : VariablePdo, p.minMilliVolt = p.minVoltage.toNat * 50 ∧ p.maxMilliVolt = p.maxVoltage.toNat * 50 ∧
    p.maxCurrentMilliAmp = p.maxCurrent.toNat * 10) ∧
  (∀ p : PpsPdo, p.minMilliVolt = p.minVoltage.toNat * 100 ∧ p.minMilliVolt ≤ 25500 ∧
    p.maxMilliVolt = p.maxVoltage.toNat * 100 ∧ p.maxMilliVolt ≤ 25500 ∧
    p.maxCurrentMilliAmp = p.maxCurrent.toNat * 50 ∧ p.maxCurrentMilliAmp ≤ 6350) ∧
  (∀ p : AvsPdo, p.minMilliVolt = p.minVoltage.toNat * 100 ∧ p.minMilliVolt ≤ 25500 ∧
    p.maxMilliVolt = p.maxVoltage.toNat * 100 ∧ p.maxMilliVolt ≤ 51100 ∧
    p.pdpWatt = p.pdp.toNat ∧ p.pdpWatt ≤ 255 ∧ p.pdpMilliWatt = p.pdp.toNat * 1000)

/-! ## RDO variant encoder, decoder and bounds check -/

/-- ENCODE_RDO returns the word of the request under the state's LAYOUT and changes nothing but the result; under the
default LAYOUT the fields of that word stand at their places and its reserved bits are 0 (41_rdo_codec.md R241 to
R244): the word is the sum of its fields times their place values. The positions are presumed, the spec's own decision
D1 (92_eei_decisions.md; log 7). -/
def Obligations.EncodedRequestIsTheSumOfItsFields : Prop :=
  ∀ s : State,
    (∀ r : FixedRdo,
      exec (.encodeRdoFixed r) s =
        .next { s with result := some (.ok (.word (encodeFixedRdo s.params.layout r))) } ∧
      (encodeFixedRdo defaultLayout r).toNat =
        r.hdr.objPos.bits.toNat * 2 ^ 28 + r.hdr.giveBack.toNat * 2 ^ 27 + r.hdr.capMismatch.toNat * 2 ^ 26
        + r.hdr.usbCommCapable.toNat * 2 ^ 25 + r.hdr.noUsbSuspend.toNat * 2 ^ 24
        + r.hdr.unchunkedExtMsg.toNat * 2 ^ 23 + r.hdr.eprCapable.toNat * 2 ^ 22
        + r.opCurrent.toNat * 2 ^ 10 + r.maxOpCurrent.toNat) ∧
    (∀ r : BatteryRdo,
      exec (.encodeRdoBattery r) s =
        .next { s with result := some (.ok (.word (encodeBatteryRdo s.params.layout r))) } ∧
      (encodeBatteryRdo defaultLayout r).toNat =
        r.hdr.objPos.bits.toNat * 2 ^ 28 + r.hdr.giveBack.toNat * 2 ^ 27 + r.hdr.capMismatch.toNat * 2 ^ 26
        + r.hdr.usbCommCapable.toNat * 2 ^ 25 + r.hdr.noUsbSuspend.toNat * 2 ^ 24
        + r.hdr.unchunkedExtMsg.toNat * 2 ^ 23 + r.hdr.eprCapable.toNat * 2 ^ 22
        + r.opPower.toNat * 2 ^ 10 + r.maxOpPower.toNat) ∧
    (∀ r : PpsRdo,
      exec (.encodeRdoPps r) s =
        .next { s with result := some (.ok (.word (encodePpsRdo s.params.layout r))) } ∧
      (encodePpsRdo defaultLayout r).toNat =
        r.hdr.objPos.bits.toNat * 2 ^ 28 + r.hdr.giveBack.toNat * 2 ^ 27 + r.hdr.capMismatch.toNat * 2 ^ 26
        + r.hdr.usbCommCapable.toNat * 2 ^ 25 + r.hdr.noUsbSuspend.toNat * 2 ^ 24
        + r.hdr.unchunkedExtMsg.toNat * 2 ^ 23 + r.hdr.eprCapable.toNat * 2 ^ 22
        + r.outVoltage.toNat * 2 ^ 9 + r.opCurrent.toNat) ∧
    (∀ r : AvsRdo,
      exec (.encodeRdoAvs r) s =
        .next { s with result := some (.ok (.word (encodeAvsRdo s.params.layout r))) } ∧
      (encodeAvsRdo defaultLayout r).toNat =
        r.hdr.objPos.bits.toNat * 2 ^ 28 + r.hdr.giveBack.toNat * 2 ^ 27 + r.hdr.capMismatch.toNat * 2 ^ 26
        + r.hdr.usbCommCapable.toNat * 2 ^ 25 + r.hdr.noUsbSuspend.toNat * 2 ^ 24
        + r.hdr.unchunkedExtMsg.toNat * 2 ^ 23 + r.hdr.eprCapable.toNat * 2 ^ 22
        + r.outVoltage.toNat * 2 ^ 9 + r.opCurrent.toNat)

/-- An encoded request never has position 0, so it is never the zero sentinel (41_rdo_codec.md R245, 30_encoding.md
R129), under every LAYOUT whose fields stand apart. That a request's position is nonzero by its type is inferred (log
16; 92_eei_decisions.md D12); that the position field is bits 31:28 is presumed with the default LAYOUT, the spec's
own decision D1 (log 7). -/
def Obligations.EncodedRequestIsNeverTheSentinel : Prop :=
  (∀ (l : Layout) (r : Rdo), l.wf = true →
    (field (encodeRdo l r) l.hdr.objPos : BitVec 4) ≠ 0#4 ∧ encodeRdo l r ≠ 0#32) ∧
  (∀ r : Rdo, encodeRdo defaultLayout r >>> 28 ≠ 0#32 ∧ encodeRdo defaultLayout r ≠ 0#32)

/-- Round-trip laws (41_rdo_codec.md R247), under every LAYOUT whose fields stand apart: (a) a request is given back
whole; (b) a word with a position and no reserved bit set is given back; (c) a reserved bit that is set comes back 0.
R247 is the spec's own derivation. The default LAYOUT is such a layout; that its position field is bits 31:28 and
which bits it reserves are presumed, the spec's own decision D1 (92_eei_decisions.md; log 7). -/
def Obligations.RequestRoundTrips : Prop :=
  (∀ l : Layout, l.wf = true →
    (∀ r : Rdo, decodeRdo l (kindOf r) (encodeRdo l r) = some r) ∧
    (∀ (k : RdoKind) (w : Word), (field w l.hdr.objPos : BitVec 4) ≠ 0#4 → w &&& reservedBits l k = 0#32 →
      ∃ r, decodeRdo l k w = some r ∧ encodeRdo l r = w) ∧
    (∀ (k : RdoKind) (w : Word) (r : Rdo), decodeRdo l k w = some r → encodeRdo l r &&& reservedBits l k = 0#32)) ∧
  defaultLayout.wf = true ∧
  (∀ w : Word, (field w defaultLayout.hdr.objPos : BitVec 4) ≠ 0#4 ↔ w >>> 28 ≠ 0#32) ∧
  reservedBits defaultLayout .fixed = 0x00300000#32 ∧ reservedBits defaultLayout .battery = 0x00300000#32 ∧
  reservedBits defaultLayout .pps = 0x00200180#32 ∧ reservedBits defaultLayout .avs = 0x00200180#32

/-- DECODE_RDO raises InvalidPosition(0) where the position field is 0 and otherwise returns the fields at their
places in the state's LAYOUT under the caller's kind; it changes nothing but the result (41_rdo_codec.md R246). The
operation is the spec's own derivation and its decision D13; the shift and mask of each place is that of the default
LAYOUT, whose positions are presumed, the spec's own decision D1 (92_eei_decisions.md; log 7). -/
def Obligations.DecodeRdoReadsFieldsOrRejectsPositionZero : Prop :=
  (∀ (w : Word) (s : State) (l : Layout), s.params.layout = l →
    ((field w l.hdr.objPos : BitVec 4) = 0#4 →
      exec (.decodeRdoFixed w) s = .next { s with result := some (.err (.invalidPosition 0)) } ∧
      exec (.decodeRdoBattery w) s = .next { s with result := some (.err (.invalidPosition 0)) } ∧
      exec (.decodeRdoPps w) s = .next { s with result := some (.err (.invalidPosition 0)) } ∧
      exec (.decodeRdoAvs w) s = .next { s with result := some (.err (.invalidPosition 0)) }) ∧
    ((field w l.hdr.objPos : BitVec 4) ≠ 0#4 → ∃ h : Hdr,
      h.objPos.bits = field w l.hdr.objPos ∧ h.giveBack = field w l.hdr.giveBack ∧
      h.capMismatch = field w l.hdr.capMismatch ∧ h.usbCommCapable = field w l.hdr.usbCommCapable ∧
      h.noUsbSuspend = field w l.hdr.noUsbSuspend ∧ h.unchunkedExtMsg = field w l.hdr.unchunkedExtMsg ∧
      h.eprCapable = field w l.hdr.eprCapable ∧
      exec (.decodeRdoFixed w) s = .next { s with result := some (.ok (.rdo (.fixed
        { hdr := h, opCurrent := field w l.fixedRdo.first, maxOpCurrent := field w l.fixedRdo.second }))) } ∧
      exec (.decodeRdoBattery w) s = .next { s with result := some (.ok (.rdo (.battery
        { hdr := h, opPower := field w l.batteryRdo.first, maxOpPower := field w l.batteryRdo.second }))) } ∧
      exec (.decodeRdoPps w) s = .next { s with result := some (.ok (.rdo (.pps
        { hdr := h, outVoltage := field w l.ppsRdo.first, opCurrent := field w l.ppsRdo.second }))) } ∧
      exec (.decodeRdoAvs w) s = .next { s with result := some (.ok (.rdo (.avs
        { hdr := h, outVoltage := field w l.avsRdo.first, opCurrent := field w l.avsRdo.second }))) })) ∧
  (∀ w : Word,
    (field w defaultLayout.hdr.objPos : BitVec 4) = (w >>> 28).setWidth 4 ∧
    (field w defaultLayout.hdr.giveBack : BitVec 1) = ((w >>> 27) &&& 1#32).setWidth 1 ∧
    (field w defaultLayout.hdr.capMismatch : BitVec 1) = ((w >>> 26) &&& 1#32).setWidth 1 ∧
    (field w defaultLayout.hdr.usbCommCapable : BitVec 1) = ((w >>> 25) &&& 1#32).setWidth 1 ∧
    (field w defaultLayout.hdr.noUsbSuspend : BitVec 1) = ((w >>> 24) &&& 1#32).setWidth 1 ∧
    (field w defaultLayout.hdr.unchunkedExtMsg : BitVec 1) = ((w >>> 23) &&& 1#32).setWidth 1 ∧
    (field w defaultLayout.hdr.eprCapable : BitVec 1) = ((w >>> 22) &&& 1#32).setWidth 1 ∧
    (field w defaultLayout.fixedRdo.first : BitVec 10) = ((w >>> 10) &&& 0x3FF#32).setWidth 10 ∧
    (field w defaultLayout.fixedRdo.second : BitVec 10) = (w &&& 0x3FF#32).setWidth 10 ∧
    (field w defaultLayout.batteryRdo.first : BitVec 10) = ((w >>> 10) &&& 0x3FF#32).setWidth 10 ∧
    (field w defaultLayout.batteryRdo.second : BitVec 10) = (w &&& 0x3FF#32).setWidth 10 ∧
    (field w defaultLayout.ppsRdo.first : BitVec 12) = ((w >>> 9) &&& 0xFFF#32).setWidth 12 ∧
    (field w defaultLayout.ppsRdo.second : BitVec 7) = (w &&& 0x7F#32).setWidth 7 ∧
    (field w defaultLayout.avsRdo.first : BitVec 12) = ((w >>> 9) &&& 0xFFF#32).setWidth 12 ∧
    (field w defaultLayout.avsRdo.second : BitVec 7) = (w &&& 0x7F#32).setWidth 7)

/-- CHECK_RDO returns whether the request's variant matches the PDO and its operating point lies in the PDO's bounds,
in physical units, and changes nothing but the result (41_rdo_codec.md R248, R249; 30_encoding.md R127). Which fields
are compared is the spec's own decision D11, that a Fixed request targets a Variable PDO D28 (92_eei_decisions.md);
the units of the request's fields are presumed (30_encoding.md R121; log 17). -/
def Obligations.CheckRdoIsMatchAndBounds : Prop :=
  ∀ (p : Pdo) (r : Rdo) (s : State), ∃ b : Bool,
    exec (.checkRdo p r) s = .next { s with result := some (.ok (.bool b)) } ∧
    (b = true ↔
      (match p, r with
       | .fixed p, .fixed r =>
         r.opCurrent.toNat * 10 ≤ p.maxCurrent.toNat * 10 ∧ r.maxOpCurrent.toNat * 10 ≤ p.maxCurrent.toNat * 10
       | .variableSupply p, .fixed r =>
         r.opCurrent.toNat * 10 ≤ p.maxCurrent.toNat * 10 ∧ r.maxOpCurrent.toNat * 10 ≤ p.maxCurrent.toNat * 10
       | .battery p, .battery r =>
         r.opPower.toNat * 250 ≤ p.maxPower.toNat * 250 ∧ r.maxOpPower.toNat * 250 ≤ p.maxPower.toNat * 250
       | .pps p, .pps r =>
         p.minVoltage.toNat * 100 ≤ r.outVoltage.toNat * 20 ∧ r.outVoltage.toNat * 20 ≤ p.maxVoltage.toNat * 100 ∧
         r.opCurrent.toNat * 50 ≤ p.maxCurrent.toNat * 50
       | .eprAvs p, .avs r =>
         p.minVoltage.toNat * 100 ≤ r.outVoltage.toNat * 25 ∧ r.outVoltage.toNat * 25 ≤ p.maxVoltage.toNat * 100
       | _, _ => False))

/-- The physical quantities of a request are exact products (41_rdo_codec.md R251). The units are presumed (log 17).
-/
def Obligations.RequestPhysicalValuesAreExactProducts : Prop :=
  (∀ r : FixedRdo, r.opMilliAmp = r.opCurrent.toNat * 10 ∧ r.maxOpMilliAmp = r.maxOpCurrent.toNat * 10) ∧
  (∀ r : BatteryRdo, r.opMilliWatt = r.opPower.toNat * 250 ∧ r.maxOpMilliWatt = r.maxOpPower.toNat * 250) ∧
  (∀ r : PpsRdo, r.outMilliVolt = r.outVoltage.toNat * 20 ∧ r.opMilliAmp = r.opCurrent.toNat * 50) ∧
  (∀ r : AvsRdo, r.outMilliVolt = r.outVoltage.toNat * 25 ∧ r.opMilliAmp = r.opCurrent.toNat * 50)

/-! ## PDO table and request register -/

/-- REFRESH_PDOS reads the table, then the count; where both succeed the seven slots and the count (a raw count above
7 as 7) are committed together and slot 0 is kept; where one fails nothing is committed, and where the table read
fails the count read is not issued (42_pdo_rdo_registers.md R280, R281). The order of the two reads and the clamp of
the count are the spec's own decisions D7 and D8 (92_eei_decisions.md). -/
def Obligations.RefreshCommitsTableAndCountTogether : Prop :=
  ∀ s : State,
    (s.draw.ok = true → s.afterDraw.draw.ok = true →
      exec .refreshPdos s = .next { s with
        block := { s.block with
          slot := #v[s.block.slot[0],
            some (s.draw.bytes[3] ++ s.draw.bytes[2] ++ s.draw.bytes[1] ++ s.draw.bytes[0]),
            some (s.draw.bytes[7] ++ s.draw.bytes[6] ++ s.draw.bytes[5] ++ s.draw.bytes[4]),
            some (s.draw.bytes[11] ++ s.draw.bytes[10] ++ s.draw.bytes[9] ++ s.draw.bytes[8]),
            some (s.draw.bytes[15] ++ s.draw.bytes[14] ++ s.draw.bytes[13] ++ s.draw.bytes[12]),
            some (s.draw.bytes[19] ++ s.draw.bytes[18] ++ s.draw.bytes[17] ++ s.draw.bytes[16]),
            some (s.draw.bytes[23] ++ s.draw.bytes[22] ++ s.draw.bytes[21] ++ s.draw.bytes[20]),
            some (s.draw.bytes[27] ++ s.draw.bytes[26] ++ s.draw.bytes[25] ++ s.draw.bytes[24])]
          pdoCount := some (Fin.ofNat 8 (min (s.afterDraw.draw.bytes[0]).toNat 7)) }
        result := some (.ok .unit)
        tape := s.tape.tail.tail
        drawn := s.drawn + 2
        bus := s.bus ++ [.read s.params.devAddr 0x00#8 28 (some s.draw.bytes.toList),
          .read s.params.devAddr 0x1C#8 1 (some [s.afterDraw.draw.bytes[0]])] }) ∧
    (s.draw.ok = false →
      exec .refreshPdos s = .next { s with
        result := some (.err .transportFailure)
        tape := s.tape.tail
        drawn := s.drawn + 1
        bus := s.bus ++ [.read s.params.devAddr 0x00#8 28 none] }) ∧
    (s.draw.ok = true → s.afterDraw.draw.ok = false →
      exec .refreshPdos s = .next { s with
        result := some (.err .transportFailure)
        tape := s.tape.tail.tail
        drawn := s.drawn + 2
        bus := s.bus ++ [.read s.params.devAddr 0x00#8 28 (some s.draw.bytes.toList),
          .read s.params.devAddr 0x1C#8 1 none] })

/-- GET_PDO_CNT returns the stored count, or faults before the first refresh (42_pdo_rdo_registers.md R282). The fault
is the spec's own decision D18 (92_eei_decisions.md; log 1). -/
def Obligations.GetPdoCntReturnsTheStoredCount : Prop :=
  ∀ s : State,
    (∀ n : Fin 8, s.block.pdoCount = some n →
      exec .getPdoCnt s = .next { s with result := some (.ok (.count n.val)) } ∧ n.val ≤ 7) ∧
    (s.block.pdoCount = none → exec .getPdoCnt s = .fault (.unwritten .pdoCount))

/-- GET_PDO i: the checks on i alone, then the read of the count, then the check against the count, then the slot
decoded under the state's LAYOUT; nothing but the result changes (42_pdo_rdo_registers.md R283). Refusing an index
between the count and 7 is the spec's own decision D9, the fault before any refresh D18 (92_eei_decisions.md; log 1).
-/
def Obligations.GetPdoDecodesAValidSlot : Prop :=
  ∀ (i : Nat) (s : State),
    (i = 0 ∨ 7 < i → exec (.getPdo i) s = .next { s with result := some (.err (.invalidPosition i)) }) ∧
    (1 ≤ i → i ≤ 7 → s.block.pdoCount = none → exec (.getPdo i) s = .fault (.unwritten .pdoCount)) ∧
    (∀ n : Fin 8, 1 ≤ i → i ≤ 7 → s.block.pdoCount = some n → n.val < i →
      exec (.getPdo i) s = .next { s with result := some (.err (.invalidPosition i)) }) ∧
    (∀ (n : Fin 8) (w : Word), 1 ≤ i → s.block.pdoCount = some n → i ≤ n.val → s.block.slot[i]? = some (some w) →
      exec (.getPdo i) s = .next { s with result := some (.ok (.pdo (decodePdo s.params.layout w))) })

/-- GET_LAST_RDO returns slot 0 raw, or faults before the first request (42_pdo_rdo_registers.md R284). The fault is
the spec's own decision D18 (92_eei_decisions.md; log 1). -/
def Obligations.GetLastRdoReturnsSlotZero : Prop :=
  ∀ s : State,
    (∀ w : Word, s.block.slot[0] = some w → exec .getLastRdo s = .next { s with result := some (.ok (.word w)) }) ∧
    (s.block.slot[0] = none → exec .getLastRdo s = .fault (.unwritten (.slot 0)))

/-- WRITE_RDO r (42_pdo_rdo_registers.md R285): the fault before any refresh; the position against the count; the
variant against the targeted PDO; then one write of the word encoded under the state's LAYOUT, little-endian, at 0x30.
No transaction is issued where a check fails. After a success slot 0 holds the word; after a failure the old or the
new one. The fault is the spec's own decision D18 (log 1), the checks are its decision D10, what a failure leaves in
slot 0 D6, in the device register D3 (92_eei_decisions.md). -/
def Obligations.WriteRdoChecksThenSendsTheEncodedRequest : Prop :=
  ∀ (r : Rdo) (s : State) (l : Layout), s.params.layout = l →
    (s.block.pdoCount = none → exec (.writeRdo r) s = .fault (.unwritten .pdoCount)) ∧
    (∀ n : Fin 8, s.block.pdoCount = some n → n.val < (hdrOf r).objPos.bits.toNat →
      exec (.writeRdo r) s =
        .next { s with result := some (.err (.invalidPosition (hdrOf r).objPos.bits.toNat)) }) ∧
    (∀ (n : Fin 8) (w : Word), s.block.pdoCount = some n → (hdrOf r).objPos.bits.toNat ≤ n.val →
      s.block.slot[(hdrOf r).objPos.bits.toNat]? = some (some w) → matchesRdo (decodePdo l w) r = false →
      exec (.writeRdo r) s =
        .next { s with result := some (.err (.variantMismatch (hdrOf r).objPos.bits.toNat)) }) ∧
    (∀ (n : Fin 8) (w : Word), s.block.pdoCount = some n → (hdrOf r).objPos.bits.toNat ≤ n.val →
      s.block.slot[(hdrOf r).objPos.bits.toNat]? = some (some w) → matchesRdo (decodePdo l w) r = true →
      s.draw.ok = true →
      ∃ m : Memory, exec (.writeRdo r) s = .next { s with
          block := { s.block with slot := s.block.slot.set 0 (some (encodeRdo l r)) }
          device := m
          result := some (.ok .unit)
          tape := s.tape.tail
          drawn := s.drawn + 1
          bus := s.bus ++ [.write s.params.devAddr 0x30#8
            [(encodeRdo l r).extractLsb' 0 8, (encodeRdo l r).extractLsb' 8 8,
             (encodeRdo l r).extractLsb' 16 8, (encodeRdo l r).extractLsb' 24 8] true] } ∧
        (∀ j, j < 4 → Memory.read m (0x30 + j) = some ((encodeRdo l r).extractLsb' (8 * j) 8)) ∧
        (∀ a, a < 0x30 ∨ 0x34 ≤ a → Memory.read m a = Memory.read s.device a)) ∧
    (∀ (n : Fin 8) (w : Word), s.block.pdoCount = some n → (hdrOf r).objPos.bits.toNat ≤ n.val →
      s.block.slot[(hdrOf r).objPos.bits.toNat]? = some (some w) → matchesRdo (decodePdo l w) r = true →
      s.draw.ok = false →
      ∃ (m : Memory) (x : Option Word), exec (.writeRdo r) s = .next { s with
          block := { s.block with slot := s.block.slot.set 0 x }
          device := m
          result := some (.err .transportFailure)
          tape := s.tape.tail
          drawn := s.drawn + 1
          bus := s.bus ++ [.write s.params.devAddr 0x30#8
            [(encodeRdo l r).extractLsb' 0 8, (encodeRdo l r).extractLsb' 8 8,
             (encodeRdo l r).extractLsb' 16 8, (encodeRdo l r).extractLsb' 24 8] false] } ∧
        x = (if s.draw.sent then some (encodeRdo l r) else s.block.slot[0]) ∧
        (∀ j, j < 4 → Memory.read m (0x30 + j) = none) ∧
        (∀ a, a < 0x30 ∨ 0x34 ≤ a → Memory.read m a = Memory.read s.device a))

/-- RESET_RDO writes four zero bytes at 0x30 without any check and slot 0 then holds the zero sentinel; after a
failure slot 0 holds the old word or zero (42_pdo_rdo_registers.md R286). What a failure leaves in slot 0 is the
spec's own decision D6, in the device register D3 (92_eei_decisions.md). -/
def Obligations.ResetRdoWritesTheZeroSentinel : Prop :=
  ∀ s : State,
    (s.draw.ok = true →
      ∃ m : Memory, exec .resetRdo s = .next { s with
          block := { s.block with slot := s.block.slot.set 0 (some 0#32) }
          device := m
          result := some (.ok .unit)
          tape := s.tape.tail
          drawn := s.drawn + 1
          bus := s.bus ++ [.write s.params.devAddr 0x30#8 [0#8, 0#8, 0#8, 0#8] true] } ∧
        (∀ j, j < 4 → Memory.read m (0x30 + j) = some 0#8) ∧
        (∀ a, a < 0x30 ∨ 0x34 ≤ a → Memory.read m a = Memory.read s.device a)) ∧
    (s.draw.ok = false →
      ∃ m : Memory, exec .resetRdo s = .next { s with
          block := { s.block with slot := s.block.slot.set 0 (if s.draw.sent then some 0#32 else s.block.slot[0]) }
          device := m
          result := some (.err .transportFailure)
          tape := s.tape.tail
          drawn := s.drawn + 1
          bus := s.bus ++ [.write s.params.devAddr 0x30#8 [0#8, 0#8, 0#8, 0#8] false] } ∧
        (∀ j, j < 4 → Memory.read m (0x30 + j) = none) ∧
        (∀ a, a < 0x30 ∨ 0x34 ≤ a → Memory.read m a = Memory.read s.device a))

/-- Slots 1..7 and the count change only in REFRESH_PDOS, slot 0 only in WRITE_RDO and RESET_RDO (10_state.md R36,
42_pdo_rdo_registers.md R287). R287 is the spec's own derivation. -/
def Obligations.OnlyRefreshAndRequestsWriteTheSlotFile : Prop :=
  ∀ (i : Instr) (s t : State), exec i s = .next t →
    (i ≠ .refreshPdos →
      t.block.pdoCount = s.block.pdoCount ∧ ∀ k : Fin 8, 1 ≤ k.val → t.block.slot[k.val] = s.block.slot[k.val]) ∧
    ((∀ r, i ≠ .writeRdo r) → i ≠ .resetRdo → t.block.slot[0] = s.block.slot[0])

/-! ## Status snapshot, interrupt mask and interrupt poll -/

/-- READ_STATUS: one read of 1 byte at 0x1D; the byte is the result and the snapshot; after a failure the snapshot
keeps its value or takes some byte (43_status_interrupt.md R320). What a failed read leaves is the spec's own decision
D5 (92_eei_decisions.md). -/
def Obligations.ReadStatusCopiesTheByteIntoTheSnapshot : Prop :=
  ∀ s : State,
    (s.draw.ok = true → exec .readStatus s = .next { s with
        block := { s.block with statusSnap := some s.draw.bytes[0] }
        result := some (.ok (.byte s.draw.bytes[0]))
        tape := s.tape.tail
        drawn := s.drawn + 1
        bus := s.bus ++ [.read s.params.devAddr 0x1D#8 1 (some [s.draw.bytes[0]])] }) ∧
    (s.draw.ok = false → exec .readStatus s = .next { s with
        block := { s.block with statusSnap := (match s.draw.snap with | none => s.block.statusSnap | some b => some b) }
        result := some (.err .transportFailure)
        tape := s.tape.tail
        drawn := s.drawn + 1
        bus := s.bus ++ [.read s.params.devAddr 0x1D#8 1 none] })

/-- GET_STATUS returns the snapshot without a transaction, or faults before the first read (43_status_interrupt.md
R321). The fault is the spec's own decision D18 (60_exceptions.md R425; 92_eei_decisions.md; log 1). -/
def Obligations.GetStatusReturnsTheSnapshot : Prop :=
  ∀ s : State,
    (∀ b : Byte, s.block.statusSnap = some b → exec .getStatus s = .next { s with result := some (.ok (.byte b)) }) ∧
    (s.block.statusSnap = none → exec .getStatus s = .fault (.unwritten .statusSnap))

/-- DECODE_STATUS returns the eight bits of the byte, each under its name; together they are the byte, the reserved bit
included (43_status_interrupt.md R322). -/
def Obligations.DecodeStatusSplitsTheByte : Prop :=
  ∀ (b : Byte) (s : State), ∃ f : StatusFlags,
    exec (.decodeStatus b) s = .next { s with result := some (.ok (.status f)) } ∧
    f.derating = (b >>> 7).setWidth 1 ∧ f.overTemperature = (b >>> 6).setWidth 1 ∧
    f.overCurrent = (b >>> 5).setWidth 1 ∧ f.overVoltage = (b >>> 4).setWidth 1 ∧
    f.reserved = (b >>> 3).setWidth 1 ∧ f.newPdo = (b >>> 2).setWidth 1 ∧
    f.success = (b >>> 1).setWidth 1 ∧ f.ready = b.setWidth 1 ∧
    f.derating ++ f.overTemperature ++ f.overCurrent ++ f.overVoltage ++ f.reserved ++ f.newPdo ++ f.success ++ f.ready
      = b

/-- SET_MASK m sends the byte as given to 0x1E; after a success the device's mask register holds it, after a failure
its value is not known; no block state is written (43_status_interrupt.md R323). That a failed write leaves the
register unknown is the spec's own decision D3 (92_eei_decisions.md). -/
def Obligations.SetMaskWritesTheByteAsGiven : Prop :=
  ∀ (b : Byte) (s : State),
    (s.draw.ok = true →
      ∃ m : Memory, exec (.setMask b) s = .next { s with
          device := m
          result := some (.ok .unit)
          tape := s.tape.tail
          drawn := s.drawn + 1
          bus := s.bus ++ [.write s.params.devAddr 0x1E#8 [b] true] } ∧
        ∀ a, Memory.read m a = if a = 0x1E then some b else Memory.read s.device a) ∧
    (s.draw.ok = false →
      ∃ m : Memory, exec (.setMask b) s = .next { s with
          device := m
          result := some (.err .transportFailure)
          tape := s.tape.tail
          drawn := s.drawn + 1
          bus := s.bus ++ [.write s.params.devAddr 0x1E#8 [b] false] } ∧
        ∀ a, Memory.read m a = if a = 0x1E then none else Memory.read s.device a)

/-- GET_MASK returns what the device returns from 0x1E: the last successfully written mask where one is known, else a
drawn byte; no block state is written (43_status_interrupt.md R324, 20_memory.md R83). The device model is the spec's
own decision D4 (92_eei_decisions.md). -/
def Obligations.GetMaskReturnsTheDeviceByte : Prop :=
  ∀ s : State,
    (s.draw.ok = true → exec .getMask s = .next { s with
        result := some (.ok (.byte ((Memory.read s.device 0x1E).getD s.draw.bytes[0])))
        tape := s.tape.tail
        drawn := s.drawn + 1
        bus := s.bus ++ [.read s.params.devAddr 0x1E#8 1 (some [(Memory.read s.device 0x1E).getD s.draw.bytes[0]])] }) ∧
    (s.draw.ok = false → exec .getMask s = .next { s with
        result := some (.err .transportFailure)
        tape := s.tape.tail
        drawn := s.drawn + 1
        bus := s.bus ++ [.read s.params.devAddr 0x1E#8 1 none] })

/-- POLL_INT returns the drawn level of the pin; no transaction is issued and no other state changes
(43_status_interrupt.md R325). That true means an interrupt is signalled is the spec's own decision D23
(92_eei_decisions.md). -/
def Obligations.PollIntReturnsTheDrawnLevel : Prop :=
  ∀ s : State, exec .pollInt s = .next { s with
    result := some (.ok (.bool s.draw.level)), tape := s.tape.tail, drawn := s.drawn + 1 }

/-! ## Measurements, thresholds and NTC calibration -/

/-- READ_VOLTAGE: one read of 1 byte at 0x20; the result is 80 mV a unit, the snapshot the raw byte; after a failure
the snapshot keeps its value or takes some byte (44_measure_threshold.md R350). What a failed read leaves is the
spec's own decision D5 (92_eei_decisions.md). -/
def Obligations.ReadVoltageGivesEightyMillivoltsAUnit : Prop :=
  ∀ s : State,
    (s.draw.ok = true → exec .readVoltage s = .next { s with
        block := { s.block with vSnap := some s.draw.bytes[0] }
        result := some (.ok (.milliVolt ((s.draw.bytes[0]).toNat * 80)))
        tape := s.tape.tail
        drawn := s.drawn + 1
        bus := s.bus ++ [.read s.params.devAddr 0x20#8 1 (some [s.draw.bytes[0]])] }) ∧
    (s.draw.ok = false → exec .readVoltage s = .next { s with
        block := { s.block with vSnap := (match s.draw.snap with | none => s.block.vSnap | some b => some b) }
        result := some (.err .transportFailure)
        tape := s.tape.tail
        drawn := s.drawn + 1
        bus := s.bus ++ [.read s.params.devAddr 0x20#8 1 none] })

/-- READ_CURRENT: one read of 1 byte at 0x21; with the default shunt the result is 24 mA a unit, with another it is
the draw's free amount; the snapshot is the raw byte (44_measure_threshold.md R351). What a failed read leaves is the
spec's own decision D5, the free amount D25 (92_eei_decisions.md). -/
def Obligations.ReadCurrentGivesTwentyFourMilliampsAUnit : Prop :=
  ∀ s : State,
    (s.draw.ok = true → exec .readCurrent s = .next { s with
        block := { s.block with iSnap := some s.draw.bytes[0] }
        result := some (.ok (.milliAmp
          (if s.params.shuntDefault then (s.draw.bytes[0]).toNat * 24 else s.draw.amount)))
        tape := s.tape.tail
        drawn := s.drawn + 1
        bus := s.bus ++ [.read s.params.devAddr 0x21#8 1 (some [s.draw.bytes[0]])] }) ∧
    (s.draw.ok = false → exec .readCurrent s = .next { s with
        block := { s.block with iSnap := (match s.draw.snap with | none => s.block.iSnap | some b => some b) }
        result := some (.err .transportFailure)
        tape := s.tape.tail
        drawn := s.drawn + 1
        bus := s.bus ++ [.read s.params.devAddr 0x21#8 1 none] })

/-- READ_TEMP: one read of 1 byte at 0x22; the result is the two's complement value in °C, -128..127; the snapshot is
the raw byte (44_measure_threshold.md R352). What a failed read leaves is the spec's own decision D5
(92_eei_decisions.md); two's complement is presumed (log 11). -/
def Obligations.ReadTempGivesTheSignedByte : Prop :=
  ∀ s : State,
    (s.draw.ok = true → ∃ z : Int,
      exec .readTemp s = .next { s with
        block := { s.block with tSnap := some s.draw.bytes[0] }
        result := some (.ok (.celsius z))
        tape := s.tape.tail
        drawn := s.drawn + 1
        bus := s.bus ++ [.read s.params.devAddr 0x22#8 1 (some [s.draw.bytes[0]])] } ∧
      z = (if (s.draw.bytes[0]).toNat < 128 then ((s.draw.bytes[0]).toNat : Int)
           else ((s.draw.bytes[0]).toNat : Int) - 256) ∧
      -128 ≤ z ∧ z ≤ 127) ∧
    (s.draw.ok = false → exec .readTemp s = .next { s with
        block := { s.block with tSnap := (match s.draw.snap with | none => s.block.tSnap | some b => some b) }
        result := some (.err .transportFailure)
        tape := s.tape.tail
        drawn := s.drawn + 1
        bus := s.bus ++ [.read s.params.devAddr 0x22#8 1 none] })

/-- GET_LAST_VOLTAGE, GET_LAST_CURRENT and GET_LAST_TEMP convert their snapshot without a transaction, or fault before
the first read; with another shunt the current is a free draw (44_measure_threshold.md R353, R354, R355). The cached
accessors are the spec's own decision D22, the fault D18 (60_exceptions.md R425; log 1), the free amount D25
(92_eei_decisions.md); two's complement is presumed (log 11). -/
def Obligations.LastMeasurementsConvertTheSnapshot : Prop :=
  ∀ s : State,
    (∀ b : Byte, s.block.vSnap = some b →
      exec .getLastVoltage s = .next { s with result := some (.ok (.milliVolt (b.toNat * 80))) }) ∧
    (s.block.vSnap = none → exec .getLastVoltage s = .fault (.unwritten .vSnap)) ∧
    (∀ b : Byte, s.block.iSnap = some b → s.params.shuntDefault = true →
      exec .getLastCurrent s = .next { s with result := some (.ok (.milliAmp (b.toNat * 24))) }) ∧
    (∀ b : Byte, s.block.iSnap = some b → s.params.shuntDefault = false →
      exec .getLastCurrent s = .next { s with
        result := some (.ok (.milliAmp s.draw.amount)), tape := s.tape.tail, drawn := s.drawn + 1 }) ∧
    (s.block.iSnap = none → exec .getLastCurrent s = .fault (.unwritten .iSnap)) ∧
    (∀ b : Byte, s.block.tSnap = some b →
      exec .getLastTemp s = .next { s with result := some (.ok (.celsius
        (if b.toNat < 128 then (b.toNat : Int) else (b.toNat : Int) - 256))) }) ∧
    (s.block.tSnap = none → exec .getLastTemp s = .fault (.unwritten .tSnap))

/-- SET_OCP mA: refused above 12799 before any transaction; else one write of floor(mA / 50) at 0x23
(44_measure_threshold.md R356). The refusal above 12799 is the spec's own decision D16, what a failed write leaves D3
(92_eei_decisions.md). -/
def Obligations.SetOcpStoresTheFloorOfFiftieths : Prop :=
  ∀ (mA : Nat) (s : State),
    (12799 < mA → exec (.setOcp mA) s = .next { s with result := some (.err (.argumentOutOfRange mA)) }) ∧
    (mA ≤ 12799 → s.draw.ok = true →
      ∃ (m : Memory) (raw : Byte), raw.toNat = mA / 50 ∧
        exec (.setOcp mA) s = .next { s with
          device := m
          result := some (.ok .unit)
          tape := s.tape.tail
          drawn := s.drawn + 1
          bus := s.bus ++ [.write s.params.devAddr 0x23#8 [raw] true] } ∧
        ∀ a, Memory.read m a = if a = 0x23 then some raw else Memory.read s.device a) ∧
    (mA ≤ 12799 → s.draw.ok = false →
      ∃ (m : Memory) (raw : Byte), raw.toNat = mA / 50 ∧
        exec (.setOcp mA) s = .next { s with
          device := m
          result := some (.err .transportFailure)
          tape := s.tape.tail
          drawn := s.drawn + 1
          bus := s.bus ++ [.write s.params.devAddr 0x23#8 [raw] false] } ∧
        ∀ a, Memory.read m a = if a = 0x23 then none else Memory.read s.device a)

/-- GET_OCP returns 50 mA a unit of the device's byte at 0x23 (44_measure_threshold.md R357, 20_memory.md R83). The
device model is the spec's own decision D4 (92_eei_decisions.md). -/
def Obligations.GetOcpGivesFiftyMilliampsAUnit : Prop :=
  ∀ s : State,
    (s.draw.ok = true → exec .getOcp s = .next { s with
        result := some (.ok (.milliAmp (((Memory.read s.device 0x23).getD s.draw.bytes[0]).toNat * 50)))
        tape := s.tape.tail
        drawn := s.drawn + 1
        bus := s.bus ++ [.read s.params.devAddr 0x23#8 1 (some [(Memory.read s.device 0x23).getD s.draw.bytes[0]])] }) ∧
    (s.draw.ok = false → exec .getOcp s = .next { s with
        result := some (.err .transportFailure)
        tape := s.tape.tail
        drawn := s.drawn + 1
        bus := s.bus ++ [.read s.params.devAddr 0x23#8 1 none] })

/-- SET_OTP c and SET_DR c: refused above 255 before any transaction; else one write of the byte c at 0x24 or 0x25
(44_measure_threshold.md R358, R360). The unsigned reading is the spec's own decision D15, the refusal above 255 D16,
what a failed write leaves D3 (92_eei_decisions.md). -/
def Obligations.SetTemperatureThresholdsStoreTheDegrees : Prop :=
  ∀ (op : Instr) (reg : Nat) (c : Nat) (s : State), (op, reg) = (.setOtp c, 0x24) ∨ (op, reg) = (.setDr c, 0x25) →
    (255 < c → exec op s = .next { s with result := some (.err (.argumentOutOfRange c)) }) ∧
    (c ≤ 255 → s.draw.ok = true →
      ∃ (m : Memory) (raw : Byte), raw.toNat = c ∧
        exec op s = .next { s with
          device := m
          result := some (.ok .unit)
          tape := s.tape.tail
          drawn := s.drawn + 1
          bus := s.bus ++ [.write s.params.devAddr (BitVec.ofNat 8 reg) [raw] true] } ∧
        ∀ a, Memory.read m a = if a = reg then some raw else Memory.read s.device a) ∧
    (c ≤ 255 → s.draw.ok = false →
      ∃ (m : Memory) (raw : Byte), raw.toNat = c ∧
        exec op s = .next { s with
          device := m
          result := some (.err .transportFailure)
          tape := s.tape.tail
          drawn := s.drawn + 1
          bus := s.bus ++ [.write s.params.devAddr (BitVec.ofNat 8 reg) [raw] false] } ∧
        ∀ a, Memory.read m a = if a = reg then none else Memory.read s.device a)

/-- GET_OTP and GET_DR return the device's byte at 0x24 or 0x25 in °C, unsigned (44_measure_threshold.md R359, R361).
The unsigned reading is the spec's own decision D15, the device model D4 (92_eei_decisions.md). -/
def Obligations.GetTemperatureThresholdsGiveTheDegrees : Prop :=
  ∀ (op : Instr) (reg : Nat) (s : State), (op, reg) = (.getOtp, 0x24) ∨ (op, reg) = (.getDr, 0x25) →
    (s.draw.ok = true → exec op s = .next { s with
        result := some (.ok (.degrees ((Memory.read s.device reg).getD s.draw.bytes[0]).toNat))
        tape := s.tape.tail
        drawn := s.drawn + 1
        bus := s.bus ++ [.read s.params.devAddr (BitVec.ofNat 8 reg) 1
          (some [(Memory.read s.device reg).getD s.draw.bytes[0]])] }) ∧
    (s.draw.ok = false → exec op s = .next { s with
        result := some (.err .transportFailure)
        tape := s.tape.tail
        drawn := s.drawn + 1
        bus := s.bus ++ [.read s.params.devAddr (BitVec.ofNat 8 reg) 1 none] })

/-- SET_NTC k, ohm: a point other than 25, 50, 75, 100 is refused first, then a resistance above 65535, both before
any transaction; else one write of the two bytes, low byte first, at 0x28, 0x2A, 0x2C or 0x2E (44_measure_threshold.md
R362). The refusals are the spec's own decision D16, what a failed write leaves D3 (92_eei_decisions.md). -/
def Obligations.SetNtcStoresTheResistanceLittleEndian : Prop :=
  ∀ (k ohm : Nat) (s : State),
    (k ≠ 25 ∧ k ≠ 50 ∧ k ≠ 75 ∧ k ≠ 100 →
      exec (.setNtc k ohm) s = .next { s with result := some (.err (.argumentOutOfRange k)) }) ∧
    (∀ reg : Nat, (k, reg) ∈ [(25, 0x28), (50, 0x2A), (75, 0x2C), (100, 0x2E)] →
      (65535 < ohm → exec (.setNtc k ohm) s = .next { s with result := some (.err (.argumentOutOfRange ohm)) }) ∧
      (ohm ≤ 65535 → s.draw.ok = true →
        ∃ (m : Memory) (lo hi : Byte), lo.toNat = ohm % 256 ∧ hi.toNat = ohm / 256 ∧
          exec (.setNtc k ohm) s = .next { s with
            device := m
            result := some (.ok .unit)
            tape := s.tape.tail
            drawn := s.drawn + 1
            bus := s.bus ++ [.write s.params.devAddr (BitVec.ofNat 8 reg) [lo, hi] true] } ∧
          ∀ a, Memory.read m a
            = if a = reg then some lo else if a = reg + 1 then some hi else Memory.read s.device a) ∧
      (ohm ≤ 65535 → s.draw.ok = false →
        ∃ (m : Memory) (lo hi : Byte), lo.toNat = ohm % 256 ∧ hi.toNat = ohm / 256 ∧
          exec (.setNtc k ohm) s = .next { s with
            device := m
            result := some (.err .transportFailure)
            tape := s.tape.tail
            drawn := s.drawn + 1
            bus := s.bus ++ [.write s.params.devAddr (BitVec.ofNat 8 reg) [lo, hi] false] } ∧
          ∀ a, Memory.read m a
            = if a = reg ∨ a = reg + 1 then none else Memory.read s.device a))

/-- GET_NTC k: a point other than 25, 50, 75, 100 is refused before any transaction; else the two bytes of the point's
register, low byte first, in Ω (44_measure_threshold.md R363, 20_memory.md R83). The refusal is the spec's own
decision D16, the device model D4 (92_eei_decisions.md). -/
def Obligations.GetNtcGivesTheResistance : Prop :=
  ∀ (k : Nat) (s : State),
    (k ≠ 25 ∧ k ≠ 50 ∧ k ≠ 75 ∧ k ≠ 100 →
      exec (.getNtc k) s = .next { s with result := some (.err (.argumentOutOfRange k)) }) ∧
    (∀ reg : Nat, (k, reg) ∈ [(25, 0x28), (50, 0x2A), (75, 0x2C), (100, 0x2E)] →
      (s.draw.ok = true → exec (.getNtc k) s = .next { s with
          result := some (.ok (.ohm (((Memory.read s.device reg).getD s.draw.bytes[0]).toNat
            + 256 * ((Memory.read s.device (reg + 1)).getD s.draw.bytes[1]).toNat)))
          tape := s.tape.tail
          drawn := s.drawn + 1
          bus := s.bus ++ [.read s.params.devAddr (BitVec.ofNat 8 reg) 2
            (some [(Memory.read s.device reg).getD s.draw.bytes[0],
              (Memory.read s.device (reg + 1)).getD s.draw.bytes[1]])] }) ∧
      (s.draw.ok = false → exec (.getNtc k) s = .next { s with
          result := some (.err .transportFailure)
          tape := s.tape.tail
          drawn := s.drawn + 1
          bus := s.bus ++ [.read s.params.devAddr (BitVec.ofNat 8 reg) 2 none] }))

/-- Scale round trip (44_measure_threshold.md R364): after SET_X x returned Ok, any operations that do not write the
register, and then GET_X that returns Ok, the result is x - (x mod scale); and getting, setting what was got, and
getting again gives the same value. R364 is the spec's own derivation from the device model, its decision D4
(92_eei_decisions.md). -/
def Obligations.SetThenGetReturnsTheValueTruncatedToItsScale : Prop :=
  (∀ (x : Nat) (between : List Instr) (s t u v : State) (y : Value),
    exec (.setOcp x) s = .next t → t.result = some (.ok .unit) →
    (∀ i ∈ between, writesTo i 0x23 = false) → runOps between t = .next u →
    exec .getOcp u = .next v → v.result = some (.ok y) → y = .milliAmp (x - x % 50)) ∧
  (∀ (x : Nat) (between : List Instr) (s t u v : State) (y : Value),
    exec (.setOtp x) s = .next t → t.result = some (.ok .unit) →
    (∀ i ∈ between, writesTo i 0x24 = false) → runOps between t = .next u →
    exec .getOtp u = .next v → v.result = some (.ok y) → y = .degrees x) ∧
  (∀ (x : Nat) (between : List Instr) (s t u v : State) (y : Value),
    exec (.setDr x) s = .next t → t.result = some (.ok .unit) →
    (∀ i ∈ between, writesTo i 0x25 = false) → runOps between t = .next u →
    exec .getDr u = .next v → v.result = some (.ok y) → y = .degrees x) ∧
  (∀ (k x a : Nat) (between : List Instr) (s t u v : State) (y : Value),
    (k, a) ∈ [(25, 0x28), (50, 0x2A), (75, 0x2C), (100, 0x2E)] →
    exec (.setNtc k x) s = .next t → t.result = some (.ok .unit) →
    (∀ i ∈ between, writesTo i a = false ∧ writesTo i (a + 1) = false) → runOps between t = .next u →
    exec (.getNtc k) u = .next v → v.result = some (.ok y) → y = .ohm x) ∧
  (∀ (y : Nat) (z : Value) (r s t u v : State),
    exec .getOcp r = .next s → s.result = some (.ok (.milliAmp y)) →
    exec (.setOcp y) s = .next t → t.result = some (.ok .unit) → runOps [] t = .next u →
    exec .getOcp u = .next v → v.result = some (.ok z) → z = .milliAmp y)

/-! ## Device control -/

/-- IS_PRESENT issues one zero-length probe and returns whether the device acknowledged; a failed probe is the answer
false, and nothing else changes (45_device_control.md R400). -/
def Obligations.IsPresentAnswersTheProbe : Prop :=
  ∀ s : State, exec .isPresent s = .next { s with
    result := some (.ok (.bool s.draw.ok))
    tape := s.tape.tail
    drawn := s.drawn + 1
    bus := s.bus ++ [.probe s.params.devAddr s.draw.ok] }

/-- INIT writes MASK_INIT, OCP_INIT, OTP_INIT and DR_INIT at 0x1E, 0x23, 0x24 and 0x25 in that order; the device then
holds them and every other register keeps its value. At the first failed write it raises TransportFailure: later
writes are not issued and earlier ones are not undone. No block state is written (45_device_control.md R401). The
order and the stop are the spec's own decision D17, what a failed write leaves D3 (92_eei_decisions.md). -/
def Obligations.InitWritesTheDefaultsUntilTheFirstFailure : Prop :=
  ∀ s : State,
    (s.draw.ok = true → s.afterDraw.draw.ok = true → s.afterDraw.afterDraw.draw.ok = true →
      s.afterDraw.afterDraw.afterDraw.draw.ok = true →
      ∃ m : Memory, exec .init s = .next { s with
          device := m
          result := some (.ok .unit)
          tape := s.tape.drop 4
          drawn := s.drawn + 4
          bus := s.bus ++ [.write s.params.devAddr 0x1E#8 [s.params.maskInit] true,
            .write s.params.devAddr 0x23#8 [s.params.ocpInit] true,
            .write s.params.devAddr 0x24#8 [s.params.otpInit] true,
            .write s.params.devAddr 0x25#8 [s.params.drInit] true] } ∧
        ∀ a, Memory.read m a =
          if a = 0x1E then some s.params.maskInit else if a = 0x23 then some s.params.ocpInit
          else if a = 0x24 then some s.params.otpInit else if a = 0x25 then some s.params.drInit
          else Memory.read s.device a) ∧
    (s.draw.ok = false →
      ∃ m : Memory, exec .init s = .next { s with
          device := m
          result := some (.err .transportFailure)
          tape := s.tape.drop 1
          drawn := s.drawn + 1
          bus := s.bus ++ [.write s.params.devAddr 0x1E#8 [s.params.maskInit] false] } ∧
        ∀ a, Memory.read m a = if a = 0x1E then none else Memory.read s.device a) ∧
    (s.draw.ok = true → s.afterDraw.draw.ok = false →
      ∃ m : Memory, exec .init s = .next { s with
          device := m
          result := some (.err .transportFailure)
          tape := s.tape.drop 2
          drawn := s.drawn + 2
          bus := s.bus ++ [.write s.params.devAddr 0x1E#8 [s.params.maskInit] true,
            .write s.params.devAddr 0x23#8 [s.params.ocpInit] false] } ∧
        ∀ a, Memory.read m a =
          if a = 0x1E then some s.params.maskInit else if a = 0x23 then none else Memory.read s.device a) ∧
    (s.draw.ok = true → s.afterDraw.draw.ok = true → s.afterDraw.afterDraw.draw.ok = false →
      ∃ m : Memory, exec .init s = .next { s with
          device := m
          result := some (.err .transportFailure)
          tape := s.tape.drop 3
          drawn := s.drawn + 3
          bus := s.bus ++ [.write s.params.devAddr 0x1E#8 [s.params.maskInit] true,
            .write s.params.devAddr 0x23#8 [s.params.ocpInit] true,
            .write s.params.devAddr 0x24#8 [s.params.otpInit] false] } ∧
        ∀ a, Memory.read m a =
          if a = 0x1E then some s.params.maskInit else if a = 0x23 then some s.params.ocpInit
          else if a = 0x24 then none else Memory.read s.device a) ∧
    (s.draw.ok = true → s.afterDraw.draw.ok = true → s.afterDraw.afterDraw.draw.ok = true →
      s.afterDraw.afterDraw.afterDraw.draw.ok = false →
      ∃ m : Memory, exec .init s = .next { s with
          device := m
          result := some (.err .transportFailure)
          tape := s.tape.drop 4
          drawn := s.drawn + 4
          bus := s.bus ++ [.write s.params.devAddr 0x1E#8 [s.params.maskInit] true,
            .write s.params.devAddr 0x23#8 [s.params.ocpInit] true,
            .write s.params.devAddr 0x24#8 [s.params.otpInit] true,
            .write s.params.devAddr 0x25#8 [s.params.drInit] false] } ∧
        ∀ a, Memory.read m a =
          if a = 0x1E then some s.params.maskInit else if a = 0x23 then some s.params.ocpInit
          else if a = 0x24 then some s.params.otpInit else if a = 0x25 then none
          else Memory.read s.device a)

/-- After a successful INIT with the default parameters the device holds 0x01 in the mask and 0xFF in the three
thresholds, and the NTC points keep what they were known to hold (45_device_control.md R402). The default bytes are
the spec's own decisions D14 and D15 (92_eei_decisions.md; log 10). -/
def Obligations.InitLeavesTheDefaultConfiguration : Prop :=
  ∀ s t : State, s.params = defaultParams → exec .init s = .next t → t.result = some (.ok .unit) →
    Memory.read t.device 0x1E = some 0x01#8 ∧ Memory.read t.device 0x23 = some 0xFF#8 ∧
    Memory.read t.device 0x24 = some 0xFF#8 ∧ Memory.read t.device 0x25 = some 0xFF#8 ∧
    ∀ a, 0x28 ≤ a → a ≤ 0x2F → Memory.read t.device a = Memory.read s.device a

/-! ## The machine as a whole -/

/-- At reset every cell of the block is `none` (10_state.md R52) and no device register is known
(70_reset_and_hazards.md R463). That every cell is `none` is the spec's own decision D18 (92_eei_decisions.md). -/
def Obligations.ResetLeavesEveryCellUnwritten : Prop :=
  (∀ c : BlockCell, State.reset.block.holds c = false) ∧ (∀ a : Nat, Memory.read State.reset.device a = none)

/-- The invariant holds at reset (10_state.md R36, R52). -/
def Obligations.ResetMeetsTheInvariant : Prop := State.reset.Inv

/-- Every step from any state keeps the invariant: table and count paired, the device memory canonical and whole
(10_state.md R36; 20_memory.md R74, R83). -/
def Obligations.EveryStepKeepsTheInvariant : Prop :=
  ∀ s t : State, s.Inv → step s = .next t → t.Inv

/-- No operation is refused, and one stops only with the fault Unwritten of a cell that holds `none` (60_exceptions.md
R425, R420). The fault is the spec's own decision D18 (92_eei_decisions.md). -/
def Obligations.OnlyUnwrittenCellsStopAnOperation : Prop :=
  ∀ (i : Instr) (s : State),
    (∀ r, exec i s ≠ .refused r) ∧ (∀ f, exec i s = .fault f → ∃ c, f = .unwritten c ∧ s.block.holds c = false)

/-- Once every cell holds a value, every operation completes and every cell still holds one (70_reset_and_hazards.md
R462). -/
def Obligations.BroughtUpBlockNeverStops : Prop :=
  ∀ (ops : List Instr) (s : State), s.block.filled = true → ∃ t, runOps ops s = .next t ∧ t.block.filled = true

/-- The device sees the operation's transactions after all earlier ones; after a failed one the operation issues no
further, and, but for the presence probe, raises TransportFailure (20_memory.md R82, R85; 60_exceptions.md R422). -/
def Obligations.NothingFollowsAFailedTransaction : Prop :=
  ∀ (i : Instr) (s t : State), exec i s = .next t →
    ∃ ts : List Transaction, t.bus = s.bus ++ ts ∧ (∀ x ∈ ts.dropLast, x.ok = true) ∧
      (i ≠ .isPresent → ((∃ x ∈ ts, x.ok = false) ↔ t.result = some (.err .transportFailure)))

/-- Every transaction of an operation is one of the address map, at its base, with its width, addressed to DEV_ADDR
(20_memory.md R75 to R78, 60_exceptions.md R435). That only base addresses at their widths are accessed is the spec's
own decision D29 (92_eei_decisions.md). -/
def Obligations.OnlyMappedTransactionsAreIssued : Prop :=
  ∀ (i : Instr) (s t : State), exec i s = .next t →
    ∃ ts : List Transaction, t.bus = s.bus ++ ts ∧ (∀ x ∈ ts, x.mapped s.params.devAddr = true) ∧
      (usesTransport i = false → ts = [])

/-- An operation that is not a register operation changes neither the block nor the device (20_memory.md R89,
40_pdo_decoder.md R208). -/
def Obligations.PureAndCachedOperationsChangeNoCell : Prop :=
  ∀ (i : Instr) (s t : State), usesTransport i = false → exec i s = .next t →
    t.block = s.block ∧ t.device = s.device ∧ t.bus = s.bus

/-- Each snapshot changes only in its own read operation (10_state.md R39, R40; 20_memory.md R89). -/
def Obligations.EachSnapshotChangesOnlyInItsOwnRead : Prop :=
  ∀ (i : Instr) (s t : State), exec i s = .next t →
    (i ≠ .readStatus → t.block.statusSnap = s.block.statusSnap) ∧
    (i ≠ .readVoltage → t.block.vSnap = s.block.vSnap) ∧
    (i ≠ .readCurrent → t.block.iSnap = s.block.iSnap) ∧
    (i ≠ .readTemp → t.block.tSnap = s.block.tSnap)

/-- After an error other than TransportFailure nothing but the result has changed: no transaction, no state written
(60_exceptions.md R429, R423, R424, R426). -/
def Obligations.RefusedCallsChangeNothing : Prop :=
  ∀ (i : Instr) (s t : State) (e : Err), exec i s = .next t → t.result = some (.err e) → e ≠ .transportFailure →
    t = { s with result := some (.err e) }

/-- Each error is raised only by the operations that the table of errors lists for its code: 1 by an operation with a
transaction other than IS_PRESENT, 2 by GET_PDO, WRITE_RDO and DECODE_RDO, 3 by WRITE_RDO, 4 by the setters of the
thresholds and by SET_NTC and GET_NTC (60_exceptions.md R421). The codes are the spec's own decision D21
(92_eei_decisions.md). -/
def Obligations.EachErrorIsRaisedOnlyByItsOperations : Prop :=
  ∀ (i : Instr) (s t : State) (e : Err), exec i s = .next t → t.result = some (.err e) →
    1 ≤ errorCode e ∧ errorCode e ≤ 4 ∧
    (errorCode e = 1 → usesTransport i = true ∧ i ≠ .isPresent) ∧
    (errorCode e = 2 → (encode i).op ∈ [.getPdo, .writeRdo, .decodeRdo]) ∧
    (errorCode e = 3 → (encode i).op = .writeRdo) ∧
    (errorCode e = 4 → (encode i).op ∈ [.setOcp, .setOtp, .setDr, .setNtc, .getNtc])

/-- A device byte that the operation's register does not cover keeps what is known of it (20_memory.md R74, R77, R83).
That a register reads as its last successful write is the spec's own decision D4 (92_eei_decisions.md); that a read, a
probe or a poll leaves what is known is the model's inference from it (log 18). -/
def Obligations.DeviceBytesOutsideTheRegisterAreKept : Prop :=
  ∀ (i : Instr) (s t : State) (a : Nat), exec i s = .next t → writesTo i a = false →
    Memory.read t.device a = Memory.read s.device a

/-- The caller's program and index and the parameters are no operation's to write (10_state.md R31, R55). -/
def Obligations.OperationsKeepProgramAndParameters : Prop :=
  ∀ (i : Instr) (s t : State), exec i s = .next t →
    t.program = s.program ∧ t.index = s.index ∧ t.params = s.params

/-- The result of a pure or cached operation other than the pin poll depends on the block alone, under one LAYOUT and
with the default shunt: it cannot see a change on the device or in the environment (20_memory.md R89,
43_status_interrupt.md R321). -/
def Obligations.CachedResultsDependOnTheBlockAlone : Prop :=
  ∀ (i : Instr) (s t s' : State), usesTransport i = false → i ≠ .pollInt → s.block = t.block →
    s.params.layout = t.params.layout →
    s.params.shuntDefault = true → t.params.shuntDefault = true → exec i s = .next s' →
    ∃ t', exec i t = .next t' ∧ t'.result = s'.result
end

