-- ==== Sys2Proof/Laws/Codec.lean ====
section
/-! SUPPORT. Fields of a packed word: a field read back from where it was placed, and nothing read from elsewhere. -/

namespace Sys2Proof.Machine

/-- Reading a field distributes over putting words together. -/
theorem field_or {n : Nat} (x y : Word) (p : FieldPos) :
    (field (x ||| y) p : BitVec n) = field x p ||| field y p := by
  ext i hi
  simp [field]

/-- A placed field is read back at its place. -/
theorem field_place_same {n : Nat} (v : BitVec n) (p : FieldPos) (h : p.lo + n ≤ 32) :
    (field (place v p) p : BitVec n) = v := by
  ext i hi
  have h1 : p.lo + i < 32 := by omega
  have h2 : i < 32 := by omega
  simp [field, place, BitVec.getElem_extractLsb', h1,
    BitVec.getLsbD_eq_getElem hi]

/-- A placed field leaves every other field 0. -/
theorem field_place_apart {n k : Nat} (v : BitVec n) (p q : FieldPos) (h : p.lo + n ≤ q.lo ∨ q.lo + k ≤ p.lo) :
    (field (place v p) q : BitVec k) = 0#k := by
  ext i hi
  simp only [field, place, BitVec.getElem_extractLsb', BitVec.getLsbD_shiftLeft, BitVec.getLsbD_setWidth,
    BitVec.getElem_zero]
  rcases h with h | h
  · have : v.getLsbD (q.lo + i - p.lo) = false := BitVec.getLsbD_of_ge v _ (by omega)
    simp [this]
  · have : q.lo + i < p.lo := by omega
    simp [this]

/-- A field as a number: the word shifted right to the field and cut to its width (40_pdo_decoder.md R210). -/
theorem field_toNat {n : Nat} (w : Word) (p : FieldPos) :
    (field w p : BitVec n).toNat = w.toNat / 2 ^ p.lo % 2 ^ n := by
  simp [field, BitVec.extractLsb'_toNat, Nat.shiftRight_eq_div_pow]

/-- A field that is read and placed again is the word cut to the field's bits. -/
theorem place_field {n : Nat} (w : Word) (p : FieldPos) :
    place (field w p : BitVec n) p = w &&& fieldMask p n := by
  ext i hi
  simp only [place, field, fieldMask, BitVec.getElem_and, BitVec.getElem_shiftLeft, BitVec.getElem_setWidth,
    BitVec.getLsbD_extractLsb', BitVec.getLsbD_allOnes]
  by_cases h : i < p.lo
  · simp [h]
  · simp [h, show p.lo + (i - p.lo) = i by omega, BitVec.getLsbD_eq_getElem hi, Bool.and_comm]

/-- A placed field covers none but its own bits. -/
theorem place_and_fieldMask {n : Nat} (v : BitVec n) (p : FieldPos) : place v p &&& fieldMask p n = place v p := by
  ext i hi
  simp only [place, fieldMask, BitVec.getElem_and, BitVec.getElem_shiftLeft, BitVec.getElem_setWidth,
    BitVec.getLsbD_allOnes]
  by_cases h : i - p.lo < n
  · simpa [h] using fun hp _ => hp
  · simp [BitVec.getLsbD_of_ge v (i - p.lo) (by omega)]

/-- Fields that fit and stand apart: the first one fits, stands apart from the rest, and so do the rest. -/
theorem fieldsApart_cons (f : FieldPos × Nat) (rest : List (FieldPos × Nat)) :
    fieldsApart (f :: rest) = true ↔
      f.1.fits f.2 = true ∧ (∀ g ∈ rest, f.1.apart g.1 = true) ∧ fieldsApart rest = true := by
  simp [fieldsApart, and_assoc]

/-- A place that fits lies in the word and is as wide as its field. -/
theorem fits_iff (p : FieldPos) (n : Nat) : p.fits n = true ↔ p.hi + 1 = p.lo + n ∧ p.hi < 32 := by
  simp [FieldPos.fits]

/-- Two places are apart where one ends below the other's start. -/
theorem apart_iff (p q : FieldPos) : p.apart q = true ↔ p.hi < q.lo ∨ q.hi < p.lo := by
  simp [FieldPos.apart]

/-- The fields of every kind of request stand apart in a layout (30_encoding.md R122 to R126). -/
theorem wf_rdoFields {l : Layout} (h : l.wf = true) (k : RdoKind) : fieldsApart (l.rdoFields k) = true := by
  simp only [Layout.wf, List.all_cons, List.all_nil, Bool.and_eq_true, Bool.and_true] at h
  obtain ⟨⟨⟨-, h1, h2, h3, h4⟩, -⟩, -⟩ := h
  cases k <;> assumption

/-- Under the default layout, the variant by the number of the word's two top bits and of its four top bits (30_encoding.md R113). -/
theorem variant_defaultLayout (w : Word) :
    variant defaultLayout w =
      if w.toNat / 2 ^ 30 = 0 then .fixed
      else if w.toNat / 2 ^ 30 = 1 then .battery
      else if w.toNat / 2 ^ 30 = 2 then .variableSupply
      else if w.toNat / 2 ^ 28 = 12 then .pps
      else if w.toNat / 2 ^ 28 = 13 then .eprAvs
      else .opaquePdo := by
  have hw := w.isLt
  have tag : (field w defaultLayout.typeTag : BitVec 2).toNat = w.toNat / 2 ^ 30 := by
    rw [field_toNat]
    simp only [defaultLayout]
    omega
  have range : (field w defaultLayout.powerRange : BitVec 2).toNat = w.toNat / 2 ^ 28 % 4 := by
    rw [field_toNat]
    rfl
  have cmp (x y : BitVec 2) : (x = y) = (x.toNat = y.toNat) := propext (BitVec.toNat_inj).symm
  unfold variant
  simp only [cmp, tag, range]
  simp only [defaultLayout]
  have e : w.toNat / 2 ^ 30 = w.toNat / 2 ^ 28 / 4 := by omega
  have b : w.toNat / 2 ^ 28 < 16 := by omega
  rw [e]
  generalize w.toNat / 2 ^ 28 = x at b ⊢
  interval_cases x <;> rfl

/-- A nonzero position field is a position. -/
@[simp] theorem objPosOf_bits (p : ObjPos) : objPosOf p.bits = some p := by
  simp only [objPosOf, p.notZero, dite_true]

/-- A position field is no position exactly where it is 0. -/
theorem objPosOf_eq_none (b : BitVec 4) : objPosOf b = none ↔ b = 0#4 := by
  unfold objPosOf
  split
  · rename_i h
    simpa using h
  · rename_i h
    simpa using h

/-- The bits of a position that was read. -/
theorem objPosOf_eq_some {b : BitVec 4} {p : ObjPos} (h : objPosOf b = some p) : p.bits = b := by
  unfold objPosOf at h
  split at h
  · cases h; rfl
  · cases h

/-- An object position lies in 1..15. -/
theorem objPos_range (p : ObjPos) : 1 ≤ p.bits.toNat ∧ p.bits.toNat ≤ 15 := by
  have hz : p.bits ≠ 0#4 := by simpa using p.notZero
  have := p.bits.isLt
  constructor
  · rcases Nat.eq_zero_or_pos p.bits.toNat with h | h
    · exact absurd (BitVec.eq_of_toNat_eq (by simpa using h)) hz
    · exact h
  · omega

end Sys2Proof.Machine
end

