-- ==== Sys2Proof/Laws/Decode.lean ====
section
/-! SUPPORT. The operand readers of the decoder, each on the operands the encoder writes. -/

namespace Sys2Proof

@[simp] theorem takeNat_cons (x : Nat) (rest : List Nat) : takeNat (x :: rest) = .ok (x, rest) := rfl

@[simp] theorem takeBits_toNat {n : Nat} (v : BitVec n) (rest : List Nat) :
    takeBits n (v.toNat :: rest) = .ok (v, rest) := by
  simp [takeBits, v.isLt]

@[simp] theorem whole_nil {α : Type} (a : α) : whole (.ok (a, [])) = .ok a := rfl

@[simp] theorem takePos_bits (p : ObjPos) (rest : List Nat) : takePos (p.bits.toNat :: rest) = .ok (p, rest) := by
  simp [takePos, bind, Except.bind]

@[simp] theorem takeHdr_hdrArgs (h : Hdr) (rest : List Nat) : takeHdr (hdrArgs h ++ rest) = .ok (h, rest) := by
  simp [takeHdr, hdrArgs, bind, Except.bind]

@[simp] theorem takeKind_kindArg (k : RdoKind) (rest : List Nat) : takeKind (kindArg k :: rest) = .ok (k, rest) := by
  cases k <;> rfl

/-- A header and two fields, read back. -/
theorem takeRequest_hdrArgs {a b : Nat} (h : Hdr) (x : BitVec a) (y : BitVec b) (rest : List Nat) :
    takeRequest a b (hdrArgs h ++ x.toNat :: y.toNat :: rest) = .ok ((h, x, y), rest) := by
  simp [takeRequest, bind, Except.bind]

/-- A number that `takeBits` accepts is the number of the bits it gives. -/
theorem takeBits_ok {n : Nat} {args : List Nat} {v : BitVec n} {rest : List Nat}
    (h : takeBits n args = .ok (v, rest)) : args = v.toNat :: rest := by
  cases args with
  | nil => simp [takeBits] at h
  | cons x xs =>
    simp only [takeBits] at h
    split at h
    · rename_i hx
      cases h
      simp [Nat.mod_eq_of_lt hx]
    · cases h

/-- Operands that are read whole leave nothing over. -/
theorem whole_ok {α : Type} {x : Except CallError (α × List Nat)} {a : α} (h : whole x = .ok a) :
    x = .ok (a, []) := by
  unfold whole at h
  split at h <;> simp_all

/-- A request, read back. -/
theorem takeRdo_rdoArgs (r : Rdo) (rest : List Nat) : takeRdo (rdoArgs r ++ rest) = .ok (r, rest) := by
  cases r <;> simp [takeRdo, rdoArgs, takeRequest, bind, Except.bind]

/-- A PDO, read back. -/
theorem takePdo_pdoArgs (p : Pdo) (rest : List Nat) : takePdo (pdoArgs p ++ rest) = .ok (p, rest) := by
  cases p <;> simp [takePdo, pdoArgs, takeFixedPdo, bind, Except.bind]

/-- A reader that succeeds has both its parts succeed. -/
theorem except_bind_ok {α β : Type} {x : Except CallError (α × List Nat)} {f : α × List Nat → Except CallError β}
    {b : β} (h : (x >>= f) = .ok b) :
    ∃ a r, x = .ok (a, r) ∧ f (a, r) = .ok b := by
  cases x with
  | error e => cases h
  | ok v => exact ⟨v.1, v.2, rfl, h⟩

/-- A mapped reader that succeeds has its reader succeed. -/
theorem except_map_ok {α β : Type} {x : Except CallError α} {f : α → β} {b} (h : x.map f = .ok b) :
    ∃ a, x = .ok a ∧ f a = b := by
  cases x with
  | error e => cases h
  | ok a => cases h; exact ⟨a, rfl, rfl⟩

/-- A natural that is read is the first operand. -/
theorem takeNat_ok {args k rest} (h : takeNat args = .ok (k, rest)) : args = k :: rest := by
  cases args <;> cases h; rfl

/-- A position that is read is the first operand. -/
theorem takePos_ok {args p rest} (h : takePos args = .ok (p, rest)) : args = p.bits.toNat :: rest := by
  unfold takePos at h
  cases e : takeBits 4 args with
  | error e' => simp [e, bind, Except.bind] at h
  | ok v =>
    obtain ⟨b, r⟩ := v
    simp [e, bind, Except.bind] at h
    split at h
    · rename_i q; cases h; rw [takeBits_ok e, Machine.objPosOf_eq_some q]
    · cases h

/-- A header that is read is the first seven operands. -/
theorem takeHdr_ok {args p rest} (h : takeHdr args = .ok (p, rest)) : args = hdrArgs p ++ rest := by
  unfold takeHdr at h
  obtain ⟨a1, r1, e1, h⟩ := except_bind_ok h
  obtain ⟨a2, r2, e2, h⟩ := except_bind_ok h
  obtain ⟨a3, r3, e3, h⟩ := except_bind_ok h
  obtain ⟨a4, r4, e4, h⟩ := except_bind_ok h
  obtain ⟨a5, r5, e5, h⟩ := except_bind_ok h
  obtain ⟨a6, r6, e6, h⟩ := except_bind_ok h
  obtain ⟨a7, r7, e7, h⟩ := except_bind_ok h
  cases h
  rw [takePos_ok e1, takeBits_ok e2, takeBits_ok e3, takeBits_ok e4, takeBits_ok e5, takeBits_ok e6,
      takeBits_ok e7]; rfl

/-- A request's header and fields that are read are the first nine operands. -/
theorem takeRequest_ok {a b args p x y rest} (h : takeRequest a b args = .ok ((p, x, y), rest)) :
    args = hdrArgs p ++ x.toNat :: y.toNat :: rest := by
  unfold takeRequest at h
  obtain ⟨a1, r1, e1, h⟩ := except_bind_ok h
  obtain ⟨a2, r2, e2, h⟩ := except_bind_ok h
  obtain ⟨a3, r3, e3, h⟩ := except_bind_ok h
  cases h
  rw [takeHdr_ok e1, takeBits_ok e2, takeBits_ok e3]

/-- A kind that is read is the first operand. -/
theorem takeKind_ok {args k rest} (h : takeKind args = .ok (k, rest)) : args = kindArg k :: rest := by
  cases args with
  | nil => cases h
  | cons x xs =>
    match x, h with
    | 0, h => cases h; rfl
    | 1, h => cases h; rfl
    | 2, h => cases h; rfl
    | 3, h => cases h; rfl
    | n + 4, h => cases h

/-- A request that is read is its operands. -/
theorem takeRdo_ok {args r rest} (h : takeRdo args = .ok (r, rest)) : args = rdoArgs r ++ rest := by
  unfold takeRdo at h
  obtain ⟨k, r1, e1, h⟩ := except_bind_ok h
  cases k
  all_goals
    obtain ⟨⟨a, b, c⟩, r2, e2, h⟩ := except_bind_ok h
    cases h
    rw [takeKind_ok e1, takeRequest_ok e2]; simp [rdoArgs]

/-- A PDO that is read is its operands. -/
theorem takePdo_ok {args p rest} (h : takePdo args = .ok (p, rest)) : args = pdoArgs p ++ rest := by
  unfold takePdo at h
  obtain ⟨k, r1, e1, h⟩ := except_bind_ok h
  match k, h with
  | 0, h =>
    obtain ⟨p, r2, e2, h⟩ := except_bind_ok h
    cases h
    unfold takeFixedPdo at e2
    obtain ⟨_, _, f1, h⟩ := except_bind_ok e2
    obtain ⟨_, _, f2, h⟩ := except_bind_ok h
    obtain ⟨_, _, f3, h⟩ := except_bind_ok h
    obtain ⟨_, _, f4, h⟩ := except_bind_ok h
    obtain ⟨_, _, f5, h⟩ := except_bind_ok h
    obtain ⟨_, _, f6, h⟩ := except_bind_ok h
    obtain ⟨_, _, f7, h⟩ := except_bind_ok h
    obtain ⟨_, _, f8, h⟩ := except_bind_ok h
    obtain ⟨_, _, f9, h⟩ := except_bind_ok h
    obtain ⟨_, _, f10, h⟩ := except_bind_ok h
    cases h
    rw [takeNat_ok e1, takeBits_ok f1, takeBits_ok f2, takeBits_ok f3, takeBits_ok f4, takeBits_ok f5,
        takeBits_ok f6, takeBits_ok f7, takeBits_ok f8, takeBits_ok f9, takeBits_ok f10]; rfl
  | 1, h =>
    obtain ⟨_, _, f1, h⟩ := except_bind_ok h
    obtain ⟨_, _, f2, h⟩ := except_bind_ok h
    obtain ⟨_, _, f3, h⟩ := except_bind_ok h
    cases h; rw [takeNat_ok e1, takeBits_ok f1, takeBits_ok f2, takeBits_ok f3]; rfl
  | 2, h =>
    obtain ⟨_, _, f1, h⟩ := except_bind_ok h
    obtain ⟨_, _, f2, h⟩ := except_bind_ok h
    obtain ⟨_, _, f3, h⟩ := except_bind_ok h
    cases h; rw [takeNat_ok e1, takeBits_ok f1, takeBits_ok f2, takeBits_ok f3]; rfl
  | 3, h =>
    obtain ⟨_, _, f1, h⟩ := except_bind_ok h
    obtain ⟨_, _, f2, h⟩ := except_bind_ok h
    obtain ⟨_, _, f3, h⟩ := except_bind_ok h
    obtain ⟨_, _, f4, h⟩ := except_bind_ok h
    cases h; rw [takeNat_ok e1, takeBits_ok f1, takeBits_ok f2, takeBits_ok f3, takeBits_ok f4]; rfl
  | 4, h =>
    obtain ⟨_, _, f1, h⟩ := except_bind_ok h
    obtain ⟨_, _, f2, h⟩ := except_bind_ok h
    obtain ⟨_, _, f3, h⟩ := except_bind_ok h
    obtain ⟨_, _, f4, h⟩ := except_bind_ok h
    cases h; rw [takeNat_ok e1, takeBits_ok f1, takeBits_ok f2, takeBits_ok f3, takeBits_ok f4]; rfl
  | 5, h =>
    obtain ⟨_, _, f1, h⟩ := except_bind_ok h
    cases h; rw [takeNat_ok e1, takeBits_ok f1]; rfl
  | n + 6, h => cases h

end Sys2Proof
end

