-- ==== Sys2Proof/Laws/Memory.lean ====
section
/-! SUPPORT. The device memory: a read after an update, and that every update keeps the canonical form. -/

namespace Sys2Proof.Machine

/-! ## One byte -/

@[simp] theorem Memory.read_nil (a : Nat) : Memory.read [] a = none := rfl

theorem Memory.read_write (m : Memory) (a b : Nat) (v : Byte) :
    Memory.read (Memory.write m a v) b = if b = a then some v else Memory.read m b := by
  induction m with
  | nil => simp [Memory.write, Memory.read]
  | cons c m ih =>
    obtain ⟨k, w⟩ := c
    by_cases h1 : a < k
    · simp [Memory.write, h1, Memory.read]
    · by_cases h2 : a = k
      · subst h2
        by_cases h3 : b = a <;> simp [Memory.write, Memory.read, h3]
      · by_cases h3 : b = k
        · subst h3
          simp [Memory.write, h1, h2, Memory.read, Ne.symm h2]
        · simp [Memory.write, h1, h2, Memory.read, h3, ih]

theorem Memory.read_forget (m : Memory) (a b : Nat) :
    Memory.read (Memory.forget m a) b = if b = a then none else Memory.read m b := by
  induction m with
  | nil => simp [Memory.forget]
  | cons c m ih =>
    obtain ⟨k, w⟩ := c
    by_cases h1 : a = k
    · subst h1
      by_cases h2 : b = a
      · subst h2
        simpa [Memory.forget] using ih
      · simp [Memory.forget, Memory.read, h2, ih]
    · by_cases h2 : b = k
      · subst h2
        simp [Memory.forget, h1, Memory.read, Ne.symm h1]
      · simp [Memory.forget, h1, Memory.read, h2, ih]

/-! ## The bytes of a register -/

theorem Memory.read_writeBytes (bs : List Byte) (m : Memory) (a b : Nat) :
    Memory.read (Memory.writeBytes m a bs) b
      = if a ≤ b ∧ b < a + bs.length then bs[b - a]? else Memory.read m b := by
  induction bs generalizing m a with
  | nil =>
    rw [if_neg (by intro h; simp at h; omega)]
    rfl
  | cons v bs ih =>
    rw [Memory.writeBytes, ih, Memory.read_write]
    by_cases h1 : b = a
    · subst h1
      simp
    · by_cases h2 : a + 1 ≤ b ∧ b < a + 1 + bs.length
      · have h3 : b - a = (b - (a + 1)) + 1 := by omega
        rw [if_pos h2, if_pos (by simp; omega), h3]
        simp
      · rw [if_neg h2, if_neg h1, if_neg (by simp; omega)]

theorem Memory.read_forgetBytes (n : Nat) (m : Memory) (a b : Nat) :
    Memory.read (Memory.forgetBytes m a n) b = if a ≤ b ∧ b < a + n then none else Memory.read m b := by
  induction n generalizing m a with
  | zero =>
    rw [if_neg (by omega)]
    rfl
  | succ n ih =>
    rw [Memory.forgetBytes, ih, Memory.read_forget]
    by_cases h1 : b = a
    · subst h1
      simp
    · by_cases h2 : a + 1 ≤ b ∧ b < a + 1 + n
      · rw [if_pos h2, if_pos (by omega)]
      · rw [if_neg h2, if_neg h1, if_neg (by omega)]

/-! ## The canonical form -/

theorem Memory.risingFrom_mono {lo lo' : Nat} {m : Memory} (h : Memory.risingFrom lo m = true) (hle : lo' ≤ lo) :
    Memory.risingFrom lo' m = true := by
  cases m with
  | nil => rfl
  | cons c m =>
    simp only [Memory.risingFrom, Bool.and_eq_true, decide_eq_true_eq] at h ⊢
    exact ⟨by omega, h.2⟩

theorem Memory.risingFrom_write {lo : Nat} {m : Memory} (a : Nat) (v : Byte) (h : Memory.risingFrom lo m = true)
    (ha : lo ≤ a) : Memory.risingFrom lo (Memory.write m a v) = true := by
  induction m generalizing lo with
  | nil => simp [Memory.write, Memory.risingFrom, ha]
  | cons c m ih =>
    obtain ⟨k, w⟩ := c
    simp only [Memory.risingFrom, Bool.and_eq_true, decide_eq_true_eq] at h
    by_cases h1 : a < k
    · simp only [Memory.write, h1, if_true, Memory.risingFrom, Bool.and_eq_true, decide_eq_true_eq]
      exact ⟨ha, by omega, h.2⟩
    · by_cases h2 : a = k
      · subst h2
        simp [Memory.write, Memory.risingFrom, ha, h.2]
      · simp [Memory.write, h1, h2, Memory.risingFrom, h.1, ih h.2 (by omega)]

theorem Memory.risingFrom_forget {lo : Nat} {m : Memory} (a : Nat) (h : Memory.risingFrom lo m = true) :
    Memory.risingFrom lo (Memory.forget m a) = true := by
  induction m generalizing lo with
  | nil => rfl
  | cons c m ih =>
    obtain ⟨k, w⟩ := c
    simp only [Memory.risingFrom, Bool.and_eq_true, decide_eq_true_eq] at h
    by_cases h1 : a = k
    · rw [Memory.forget, if_pos h1]
      exact ih (Memory.risingFrom_mono h.2 (by omega))
    · simp [Memory.forget, h1, Memory.risingFrom, h.1, ih h.2]

theorem Memory.all_write {p : Nat → Bool} {m : Memory} (a : Nat) (v : Byte) (h : (m.all fun c => p c.1) = true)
    (ha : p a = true) : ((Memory.write m a v).all fun c => p c.1) = true := by
  induction m with
  | nil => simp [Memory.write, ha]
  | cons c m ih =>
    obtain ⟨k, w⟩ := c
    simp only [List.all_cons, Bool.and_eq_true] at h
    by_cases h1 : a < k
    · simp only [Memory.write, h1, if_true, List.all_cons, Bool.and_eq_true]
      exact ⟨ha, h.1, h.2⟩
    · by_cases h2 : a = k
      · simp only [Memory.write, h2, if_true, if_false, List.all_cons, Bool.and_eq_true, lt_irrefl]
        exact ⟨h.1, h.2⟩
      · simp only [Memory.write, h1, h2, if_false, List.all_cons, Bool.and_eq_true]
        exact ⟨h.1, ih h.2⟩

theorem Memory.all_forget {p : Nat → Bool} {m : Memory} (a : Nat) (h : (m.all fun c => p c.1) = true) :
    ((Memory.forget m a).all fun c => p c.1) = true := by
  induction m with
  | nil => rfl
  | cons c m ih =>
    obtain ⟨k, w⟩ := c
    simp only [List.all_cons, Bool.and_eq_true] at h
    by_cases h1 : a = k
    · simp only [Memory.forget, h1, if_true]
      simpa [h1] using ih h.2
    · simp only [Memory.forget, h1, if_false, List.all_cons, Bool.and_eq_true]
      exact ⟨h.1, ih h.2⟩

theorem Memory.wf_write {m : Memory} (a : Nat) (v : Byte) (h : Memory.wf m = true) (ha : writtenAddr a = true) :
    Memory.wf (Memory.write m a v) = true := by
  simp only [Memory.wf, Bool.and_eq_true] at h ⊢
  exact ⟨Memory.risingFrom_write a v h.1 (Nat.zero_le a), Memory.all_write a v h.2 ha⟩

theorem Memory.wf_forget {m : Memory} (a : Nat) (h : Memory.wf m = true) : Memory.wf (Memory.forget m a) = true := by
  simp only [Memory.wf, Bool.and_eq_true] at h ⊢
  exact ⟨Memory.risingFrom_forget a h.1, Memory.all_forget a h.2⟩

/-- Writing a register the block writes keeps the canonical form. -/
theorem Memory.wf_writeBytes {m : Memory} (bs : List Byte) (a : Nat) (h : Memory.wf m = true)
    (ha : ∀ j, j < bs.length → writtenAddr (a + j) = true) : Memory.wf (Memory.writeBytes m a bs) = true := by
  induction bs generalizing m a with
  | nil => exact h
  | cons v bs ih =>
    refine ih (a + 1) (Memory.wf_write a v h (ha 0 (by simp))) fun j hj => ?_
    have := ha (j + 1) (by simp; omega)
    rwa [show a + 1 + j = a + (j + 1) by omega]

/-- Forgetting a register keeps the canonical form. -/
theorem Memory.wf_forgetBytes {m : Memory} (n a : Nat) (h : Memory.wf m = true) :
    Memory.wf (Memory.forgetBytes m a n) = true := by
  induction n generalizing m a with
  | zero => exact h
  | succ n ih => exact ih (a + 1) (Memory.wf_forget a h)

/-- The memory at reset has the canonical form. -/
theorem Memory.wf_reset : Memory.wf State.reset.device = true := rfl

/-- Below its lowest address a rising memory lists nothing. -/
theorem Memory.read_lt {lo a : Nat} {m : Memory} (h : Memory.risingFrom lo m = true) (ha : a < lo) :
    Memory.read m a = none := by
  induction m generalizing lo with
  | nil => rfl
  | cons c m ih =>
    obtain ⟨k, w⟩ := c
    simp only [Memory.risingFrom, Bool.and_eq_true, decide_eq_true_eq] at h
    rw [Memory.read, if_neg (by omega)]
    exact ih h.2 (by omega)

/-- Memories in canonical form that read alike are equal data. -/
theorem Memory.eq_of_read_eq {lo : Nat} {m n : Memory} (hm : Memory.risingFrom lo m = true)
    (hn : Memory.risingFrom lo n = true) (h : ∀ a, Memory.read m a = Memory.read n a) : m = n := by
  induction m generalizing lo n with
  | nil =>
    cases n with
    | nil => rfl
    | cons c n =>
      have := h c.1
      simp [Memory.read] at this
  | cons c m ih =>
    obtain ⟨k, v⟩ := c
    cases n with
    | nil =>
      have := h k
      simp [Memory.read] at this
    | cons d n =>
      obtain ⟨j, w⟩ := d
      simp only [Memory.risingFrom, Bool.and_eq_true, decide_eq_true_eq] at hm hn
      have hkj : k = j := by
        rcases Nat.lt_trichotomy k j with hlt | heq | hgt
        · have := h k
          rw [Memory.read, if_pos rfl, Memory.read, if_neg (by omega), Memory.read_lt hn.2 (by omega)] at this
          exact absurd this (by simp)
        · exact heq
        · have := h j
          rw [Memory.read, if_neg (by omega), Memory.read_lt hm.2 (by omega), Memory.read, if_pos rfl] at this
          exact absurd this (by simp)
      subst hkj
      have hvw : v = w := by simpa [Memory.read] using h k
      subst hvw
      have htail : ∀ a, Memory.read m a = Memory.read n a := by
        intro a
        by_cases ha : a = k
        · rw [ha, Memory.read_lt hm.2 (by omega), Memory.read_lt hn.2 (by omega)]
        · simpa [Memory.read, ha] using h a
      rw [ih hm.2 hn.2 htail]

end Sys2Proof.Machine
end

