-- ==== Sys2Proof/Laws/State.lean ====
section
/-! SUPPORT. One lemma per field per update of the state and of the block, true by rfl, so that no later proof unfolds a
record update. -/

namespace Sys2Proof.Machine

/-! ## setBlock -/

@[simp] theorem State.setBlock_block (s : State) (b : Block) : (s.setBlock b).block = b := rfl
@[simp] theorem State.setBlock_device (s : State) (b : Block) : (s.setBlock b).device = s.device := rfl
@[simp] theorem State.setBlock_params (s : State) (b : Block) : (s.setBlock b).params = s.params := rfl
@[simp] theorem State.setBlock_program (s : State) (b : Block) : (s.setBlock b).program = s.program := rfl
@[simp] theorem State.setBlock_index (s : State) (b : Block) : (s.setBlock b).index = s.index := rfl
@[simp] theorem State.setBlock_result (s : State) (b : Block) : (s.setBlock b).result = s.result := rfl
@[simp] theorem State.setBlock_tape (s : State) (b : Block) : (s.setBlock b).tape = s.tape := rfl
@[simp] theorem State.setBlock_drawn (s : State) (b : Block) : (s.setBlock b).drawn = s.drawn := rfl
@[simp] theorem State.setBlock_bus (s : State) (b : Block) : (s.setBlock b).bus = s.bus := rfl
@[simp] theorem State.setBlock_draw (s : State) (b : Block) : (s.setBlock b).draw = s.draw := rfl

/-! ## setDevice -/

@[simp] theorem State.setDevice_block (s : State) (m : Memory) : (s.setDevice m).block = s.block := rfl
@[simp] theorem State.setDevice_device (s : State) (m : Memory) : (s.setDevice m).device = m := rfl
@[simp] theorem State.setDevice_params (s : State) (m : Memory) : (s.setDevice m).params = s.params := rfl
@[simp] theorem State.setDevice_program (s : State) (m : Memory) : (s.setDevice m).program = s.program := rfl
@[simp] theorem State.setDevice_index (s : State) (m : Memory) : (s.setDevice m).index = s.index := rfl
@[simp] theorem State.setDevice_result (s : State) (m : Memory) : (s.setDevice m).result = s.result := rfl
@[simp] theorem State.setDevice_tape (s : State) (m : Memory) : (s.setDevice m).tape = s.tape := rfl
@[simp] theorem State.setDevice_drawn (s : State) (m : Memory) : (s.setDevice m).drawn = s.drawn := rfl
@[simp] theorem State.setDevice_bus (s : State) (m : Memory) : (s.setDevice m).bus = s.bus := rfl
@[simp] theorem State.setDevice_draw (s : State) (m : Memory) : (s.setDevice m).draw = s.draw := rfl

/-! ## setResult -/

@[simp] theorem State.setResult_block (s : State) (r : OpResult) : (s.setResult r).block = s.block := rfl
@[simp] theorem State.setResult_device (s : State) (r : OpResult) : (s.setResult r).device = s.device := rfl
@[simp] theorem State.setResult_params (s : State) (r : OpResult) : (s.setResult r).params = s.params := rfl
@[simp] theorem State.setResult_program (s : State) (r : OpResult) : (s.setResult r).program = s.program := rfl
@[simp] theorem State.setResult_index (s : State) (r : OpResult) : (s.setResult r).index = s.index := rfl
@[simp] theorem State.setResult_result (s : State) (r : OpResult) : (s.setResult r).result = some r := rfl
@[simp] theorem State.setResult_tape (s : State) (r : OpResult) : (s.setResult r).tape = s.tape := rfl
@[simp] theorem State.setResult_drawn (s : State) (r : OpResult) : (s.setResult r).drawn = s.drawn := rfl
@[simp] theorem State.setResult_bus (s : State) (r : OpResult) : (s.setResult r).bus = s.bus := rfl
@[simp] theorem State.setResult_draw (s : State) (r : OpResult) : (s.setResult r).draw = s.draw := rfl

/-! ## log -/

@[simp] theorem State.log_block (s : State) (t : Transaction) : (s.log t).block = s.block := rfl
@[simp] theorem State.log_device (s : State) (t : Transaction) : (s.log t).device = s.device := rfl
@[simp] theorem State.log_params (s : State) (t : Transaction) : (s.log t).params = s.params := rfl
@[simp] theorem State.log_program (s : State) (t : Transaction) : (s.log t).program = s.program := rfl
@[simp] theorem State.log_index (s : State) (t : Transaction) : (s.log t).index = s.index := rfl
@[simp] theorem State.log_result (s : State) (t : Transaction) : (s.log t).result = s.result := rfl
@[simp] theorem State.log_tape (s : State) (t : Transaction) : (s.log t).tape = s.tape := rfl
@[simp] theorem State.log_drawn (s : State) (t : Transaction) : (s.log t).drawn = s.drawn := rfl
@[simp] theorem State.log_bus (s : State) (t : Transaction) : (s.log t).bus = s.bus ++ [t] := rfl
@[simp] theorem State.log_draw (s : State) (t : Transaction) : (s.log t).draw = s.draw := rfl

/-! ## advance -/

@[simp] theorem State.advance_block (s : State) : (s.advance).block = s.block := rfl
@[simp] theorem State.advance_device (s : State) : (s.advance).device = s.device := rfl
@[simp] theorem State.advance_params (s : State) : (s.advance).params = s.params := rfl
@[simp] theorem State.advance_program (s : State) : (s.advance).program = s.program := rfl
@[simp] theorem State.advance_index (s : State) : (s.advance).index = s.index + 1 := rfl
@[simp] theorem State.advance_result (s : State) : (s.advance).result = s.result := rfl
@[simp] theorem State.advance_tape (s : State) : (s.advance).tape = s.tape := rfl
@[simp] theorem State.advance_drawn (s : State) : (s.advance).drawn = s.drawn := rfl
@[simp] theorem State.advance_bus (s : State) : (s.advance).bus = s.bus := rfl
@[simp] theorem State.advance_draw (s : State) : (s.advance).draw = s.draw := rfl

/-! ## afterDraw -/

@[simp] theorem State.afterDraw_block (s : State) : (s.afterDraw).block = s.block := rfl
@[simp] theorem State.afterDraw_device (s : State) : (s.afterDraw).device = s.device := rfl
@[simp] theorem State.afterDraw_params (s : State) : (s.afterDraw).params = s.params := rfl
@[simp] theorem State.afterDraw_program (s : State) : (s.afterDraw).program = s.program := rfl
@[simp] theorem State.afterDraw_index (s : State) : (s.afterDraw).index = s.index := rfl
@[simp] theorem State.afterDraw_result (s : State) : (s.afterDraw).result = s.result := rfl
@[simp] theorem State.afterDraw_tape (s : State) : (s.afterDraw).tape = s.tape.tail := rfl
@[simp] theorem State.afterDraw_drawn (s : State) : (s.afterDraw).drawn = s.drawn + 1 := rfl
@[simp] theorem State.afterDraw_bus (s : State) : (s.afterDraw).bus = s.bus := rfl

/-! ## setLastRdo -/

@[simp] theorem Block.setLastRdo_slot (b : Block) (w : Option Word) : (b.setLastRdo w).slot = b.slot.set 0 w := rfl
@[simp] theorem Block.setLastRdo_pdoCount (b : Block) (w : Option Word) : (b.setLastRdo w).pdoCount = b.pdoCount := rfl
@[simp] theorem Block.setLastRdo_statusSnap (b : Block) (w : Option Word) : (b.setLastRdo w).statusSnap = b.statusSnap := rfl
@[simp] theorem Block.setLastRdo_vSnap (b : Block) (w : Option Word) : (b.setLastRdo w).vSnap = b.vSnap := rfl
@[simp] theorem Block.setLastRdo_iSnap (b : Block) (w : Option Word) : (b.setLastRdo w).iSnap = b.iSnap := rfl
@[simp] theorem Block.setLastRdo_tSnap (b : Block) (w : Option Word) : (b.setLastRdo w).tSnap = b.tSnap := rfl

/-! ## setStatus -/

@[simp] theorem Block.setStatus_slot (b : Block) (v : Option Byte) : (b.setStatus v).slot = b.slot := rfl
@[simp] theorem Block.setStatus_pdoCount (b : Block) (v : Option Byte) : (b.setStatus v).pdoCount = b.pdoCount := rfl
@[simp] theorem Block.setStatus_statusSnap (b : Block) (v : Option Byte) : (b.setStatus v).statusSnap = v := rfl
@[simp] theorem Block.setStatus_vSnap (b : Block) (v : Option Byte) : (b.setStatus v).vSnap = b.vSnap := rfl
@[simp] theorem Block.setStatus_iSnap (b : Block) (v : Option Byte) : (b.setStatus v).iSnap = b.iSnap := rfl
@[simp] theorem Block.setStatus_tSnap (b : Block) (v : Option Byte) : (b.setStatus v).tSnap = b.tSnap := rfl

/-! ## setVoltage -/

@[simp] theorem Block.setVoltage_slot (b : Block) (v : Option Byte) : (b.setVoltage v).slot = b.slot := rfl
@[simp] theorem Block.setVoltage_pdoCount (b : Block) (v : Option Byte) : (b.setVoltage v).pdoCount = b.pdoCount := rfl
@[simp] theorem Block.setVoltage_statusSnap (b : Block) (v : Option Byte) : (b.setVoltage v).statusSnap = b.statusSnap := rfl
@[simp] theorem Block.setVoltage_vSnap (b : Block) (v : Option Byte) : (b.setVoltage v).vSnap = v := rfl
@[simp] theorem Block.setVoltage_iSnap (b : Block) (v : Option Byte) : (b.setVoltage v).iSnap = b.iSnap := rfl
@[simp] theorem Block.setVoltage_tSnap (b : Block) (v : Option Byte) : (b.setVoltage v).tSnap = b.tSnap := rfl

/-! ## setCurrent -/

@[simp] theorem Block.setCurrent_slot (b : Block) (v : Option Byte) : (b.setCurrent v).slot = b.slot := rfl
@[simp] theorem Block.setCurrent_pdoCount (b : Block) (v : Option Byte) : (b.setCurrent v).pdoCount = b.pdoCount := rfl
@[simp] theorem Block.setCurrent_statusSnap (b : Block) (v : Option Byte) : (b.setCurrent v).statusSnap = b.statusSnap := rfl
@[simp] theorem Block.setCurrent_vSnap (b : Block) (v : Option Byte) : (b.setCurrent v).vSnap = b.vSnap := rfl
@[simp] theorem Block.setCurrent_iSnap (b : Block) (v : Option Byte) : (b.setCurrent v).iSnap = v := rfl
@[simp] theorem Block.setCurrent_tSnap (b : Block) (v : Option Byte) : (b.setCurrent v).tSnap = b.tSnap := rfl

/-! ## setTemp -/

@[simp] theorem Block.setTemp_slot (b : Block) (v : Option Byte) : (b.setTemp v).slot = b.slot := rfl
@[simp] theorem Block.setTemp_pdoCount (b : Block) (v : Option Byte) : (b.setTemp v).pdoCount = b.pdoCount := rfl
@[simp] theorem Block.setTemp_statusSnap (b : Block) (v : Option Byte) : (b.setTemp v).statusSnap = b.statusSnap := rfl
@[simp] theorem Block.setTemp_vSnap (b : Block) (v : Option Byte) : (b.setTemp v).vSnap = b.vSnap := rfl
@[simp] theorem Block.setTemp_iSnap (b : Block) (v : Option Byte) : (b.setTemp v).iSnap = b.iSnap := rfl
@[simp] theorem Block.setTemp_tSnap (b : Block) (v : Option Byte) : (b.setTemp v).tSnap = v := rfl

/-! ## setTable -/

@[simp] theorem Block.setTable_pdoCount (b : Block) (t : Vector Byte 28) (n : Fin 8) : (b.setTable t n).pdoCount = some n := rfl
@[simp] theorem Block.setTable_statusSnap (b : Block) (t : Vector Byte 28) (n : Fin 8) : (b.setTable t n).statusSnap = b.statusSnap := rfl
@[simp] theorem Block.setTable_vSnap (b : Block) (t : Vector Byte 28) (n : Fin 8) : (b.setTable t n).vSnap = b.vSnap := rfl
@[simp] theorem Block.setTable_iSnap (b : Block) (t : Vector Byte 28) (n : Fin 8) : (b.setTable t n).iSnap = b.iSnap := rfl
@[simp] theorem Block.setTable_tSnap (b : Block) (t : Vector Byte 28) (n : Fin 8) : (b.setTable t n).tSnap = b.tSnap := rfl

/-- A table commit keeps slot 0 (42_pdo_rdo_registers.md R280). -/
@[simp] theorem Block.setTable_slot_zero (b : Block) (t : Vector Byte 28) (n : Fin 8) :
    (b.setTable t n).slot[0] = b.slot[0] := rfl

/-- A table commit fills slots 1..7 with the table's words (20_memory.md R71). -/
theorem Block.setTable_slot_succ (b : Block) (t : Vector Byte 28) (n : Fin 8) (k : Fin 7) :
    (b.setTable t n).slot[k.val + 1] = some (tableWord t k) := by
  fin_cases k <;> rfl

/-- Putting back the block a state has changes nothing. -/
@[simp] theorem State.setBlock_block_self (s : State) : s.setBlock s.block = s := rfl

end Sys2Proof.Machine
end

