-- ==== Sys2Proof/Laws/Ops.lean ====
section
/-! SUPPORT. For each shared operation, one lemma that says all it can do; the proofs cite these and unfold nothing. -/

namespace Sys2Proof.Machine

/-! ## How an operation ends -/

theorem State.ret_eq (s : State) (v : Value) : s.ret v = .next (s.setResult (.ok v)) := rfl

theorem State.raise_eq (s : State) (e : Err) : s.raise e = .next (s.setResult (.err e)) := rfl

@[simp] theorem needCell_none {α : Type} (c : BlockCell) (k : α → Host.Outcome State Fault Refusal) :
    needCell c none k = .fault (.unwritten c) := rfl

@[simp] theorem needCell_some {α : Type} (c : BlockCell) (v : α) (k : α → Host.Outcome State Fault Refusal) :
    needCell c (some v) k = k v := rfl

/-- A cell's value is needed and answered only where it holds one. -/
theorem needCell_next {α : Type} {c : BlockCell} {x : Option α} {k : α → Host.Outcome State Fault Refusal} {t : State}
    (h : needCell c x k = .next t) : ∃ v, x = some v ∧ k v = .next t := by
  cases x with
  | none => simp at h
  | some v => exact ⟨v, rfl, h⟩

/-! ## The transport -/

/-- Byte `j` of a successful read (20_memory.md R83, R84). -/
theorem State.readBytes_get (s : State) (a : RegAddr) (n : Nat) (h : n ≤ 28) (j : Nat) (hj : j < n) :
    (s.readBytes a n h)[j] = s.returned (a.toNat + j) (s.draw.bytes[j]'(by unfold Config.tableBytes; omega)) := by
  simp [State.readBytes]

/-- A device-owned byte is drawn (20_memory.md R84). -/
theorem State.returned_drawn (s : State) {a : Nat} (d : Byte) (h : configAddr a = false) : s.returned a d = d := by
  simp [State.returned, h]

/-- A configuration byte is what it is known to hold, else drawn (20_memory.md R83). -/
theorem State.returned_config (s : State) {a : Nat} (d : Byte) (h : configAddr a = true) :
    s.returned a d = (Memory.read s.device a).getD d := by
  simp [State.returned, h]

/-- A read that succeeds (20_memory.md R80). -/
theorem State.memRead_ok (s : State) (a : RegAddr) (n : Nat) (h : n ≤ 28) (hok : s.draw.ok = true) :
    s.memRead a n h = (some (s.readBytes a n h),
      s.afterDraw.log (.read s.params.devAddr a n (some (s.readBytes a n h).toList))) := by
  simp [State.memRead, hok]

/-- A read that fails (20_memory.md R80). -/
theorem State.memRead_fail (s : State) (a : RegAddr) (n : Nat) (h : n ≤ 28) (hok : s.draw.ok = false) :
    s.memRead a n h = (none, s.afterDraw.log (.read s.params.devAddr a n none)) := by
  simp [State.memRead, hok]

/-- A write that succeeds (20_memory.md R80, R83). -/
theorem State.memWrite_ok (s : State) (a : RegAddr) (bs : List Byte) (hok : s.draw.ok = true) :
    s.memWrite a bs = (true, (s.afterDraw.log (.write s.params.devAddr a bs true)).setDevice
      (Memory.writeBytes s.device a.toNat bs)) := by
  simp [State.memWrite, hok]

/-- A write that fails (20_memory.md R80, R83). -/
theorem State.memWrite_fail (s : State) (a : RegAddr) (bs : List Byte) (hok : s.draw.ok = false) :
    s.memWrite a bs = (false, (s.afterDraw.log (.write s.params.devAddr a bs false)).setDevice
      (Memory.forgetBytes s.device a.toNat bs.length)) := by
  simp [State.memWrite, hok]

/-- A probe: its answer and the state after it (20_memory.md R81). -/
theorem State.probe_eq (s : State) : s.probe = (s.draw.ok, s.afterDraw.log (.probe s.params.devAddr s.draw.ok)) := rfl

/-- A poll of the pin: its level and the state after it (43_status_interrupt.md R325). -/
theorem State.intPin_eq (s : State) : s.intPin = (s.draw.level, s.afterDraw) := rfl

/-- A successful read of one device-owned byte returns the drawn byte (20_memory.md R84). -/
theorem State.readBytes_one_drawn (s : State) (a : RegAddr) (h : configAddr a.toNat = false) :
    s.readBytes a 1 (by decide) = #v[s.draw.bytes[0]] := by
  ext i hi
  obtain rfl : i = 0 := by omega
  simp [State.readBytes_get, State.returned, h]

/-- A successful read of one configuration byte returns what is known of it, else the drawn byte (20_memory.md R83). -/
theorem State.readBytes_one_config (s : State) (a : RegAddr) (h : configAddr a.toNat = true) :
    s.readBytes a 1 (by decide) = #v[(Memory.read s.device a.toNat).getD s.draw.bytes[0]] := by
  ext i hi
  obtain rfl : i = 0 := by omega
  simp [State.readBytes_get, State.returned, h]

/-- A successful read of an NTC register returns what is known of it, else the drawn bytes (20_memory.md R83). -/
theorem State.readBytes_two_config (s : State) (a : RegAddr) (h : configAddr a.toNat = true)
    (h' : configAddr (a.toNat + 1) = true) :
    s.readBytes a 2 (by decide) = #v[(Memory.read s.device a.toNat).getD s.draw.bytes[0],
      (Memory.read s.device (a.toNat + 1)).getD s.draw.bytes[1]] := by
  ext i hi
  obtain rfl | rfl : i = 0 ∨ i = 1 := by omega
  all_goals simp [State.readBytes_get, State.returned, h, h']

/-! ## Shared shapes -/

theorem readThen_ok (a : RegAddr) (n : Nat) (h : n ≤ 28)
    (k : Vector Byte n → State → Host.Outcome State Fault Refusal) (s : State) (hok : s.draw.ok = true) :
    readThen a n h k s = k (s.readBytes a n h)
      (s.afterDraw.log (.read s.params.devAddr a n (some (s.readBytes a n h).toList))) := by
  simp [readThen, State.memRead_ok s a n h hok]

theorem readThen_fail (a : RegAddr) (n : Nat) (h : n ≤ 28)
    (k : Vector Byte n → State → Host.Outcome State Fault Refusal) (s : State) (hok : s.draw.ok = false) :
    readThen a n h k s = (s.afterDraw.log (.read s.params.devAddr a n none)).raise .transportFailure := by
  simp [readThen, State.memRead_fail s a n h hok]

theorem snapshotRead_ok (a : RegAddr) (get : Block → Option Byte) (set : Block → Option Byte → Block)
    (k : Byte → Value) (s : State) (hok : s.draw.ok = true) :
    snapshotRead a get set k s =
      ((s.afterDraw.log (.read s.params.devAddr a 1 (some (s.readBytes a 1 (by decide)).toList))).setBlock
        (set s.block (some (s.readBytes a 1 (by decide))[0]))).ret (k (s.readBytes a 1 (by decide))[0]) := by
  simp [snapshotRead, State.memRead_ok s a 1 (by decide) hok]

theorem snapshotRead_fail (a : RegAddr) (get : Block → Option Byte) (set : Block → Option Byte → Block)
    (k : Byte → Value) (s : State) (hok : s.draw.ok = false) :
    snapshotRead a get set k s =
      ((s.afterDraw.log (.read s.params.devAddr a 1 none)).setBlock
        (set s.block (snapAfterFail s.draw (get s.block)))).raise .transportFailure := by
  simp [snapshotRead, State.memRead_fail s a 1 (by decide) hok]

theorem configWrite_ok (a : RegAddr) (bs : List Byte) (s : State) (hok : s.draw.ok = true) :
    configWrite a bs s = ((s.afterDraw.log (.write s.params.devAddr a bs true)).setDevice
      (Memory.writeBytes s.device a.toNat bs)).ret .unit := by
  simp [configWrite, State.memWrite_ok s a bs hok]

theorem configWrite_fail (a : RegAddr) (bs : List Byte) (s : State) (hok : s.draw.ok = false) :
    configWrite a bs s = ((s.afterDraw.log (.write s.params.devAddr a bs false)).setDevice
      (Memory.forgetBytes s.device a.toNat bs.length)).raise .transportFailure := by
  simp [configWrite, State.memWrite_fail s a bs hok]

theorem requestWrite_ok (w : Word) (s : State) (hok : s.draw.ok = true) :
    requestWrite w s =
      (((s.afterDraw.log (.write s.params.devAddr 0x30#8 (bytesLe32 w) true)).setDevice
        (Memory.writeBytes s.device 0x30 (bytesLe32 w))).setBlock (s.block.setLastRdo (some w))).ret .unit := by
  simp [requestWrite, State.memWrite_ok s _ _ hok]

theorem requestWrite_fail (w : Word) (s : State) (hok : s.draw.ok = false) :
    requestWrite w s =
      (((s.afterDraw.log (.write s.params.devAddr 0x30#8 (bytesLe32 w) false)).setDevice
        (Memory.forgetBytes s.device 0x30 4)).setBlock
          (s.block.setLastRdo (slotAfterFail s.draw (s.block.slot[0]) w))).raise .transportFailure := by
  simp [requestWrite, State.memWrite_fail s _ _ hok, bytesLe32]

@[simp] theorem configWrites_nil (s : State) : configWrites [] s = s.ret .unit := rfl

theorem configWrites_cons_ok (a : RegAddr) (b : Byte) (rest : List (RegAddr × Byte)) (s : State)
    (hok : s.draw.ok = true) :
    configWrites ((a, b) :: rest) s =
      configWrites rest ((s.afterDraw.log (.write s.params.devAddr a [b] true)).setDevice
        (Memory.writeBytes s.device a.toNat [b])) := by
  simp [configWrites, State.memWrite_ok s a [b] hok]

theorem configWrites_cons_fail (a : RegAddr) (b : Byte) (rest : List (RegAddr × Byte)) (s : State)
    (hok : s.draw.ok = false) :
    configWrites ((a, b) :: rest) s =
      ((s.afterDraw.log (.write s.params.devAddr a [b] false)).setDevice
        (Memory.forgetBytes s.device a.toNat 1)).raise .transportFailure := by
  simp [configWrites, State.memWrite_fail s a [b] hok]

/-- What a failed snapshot read leaves: the previous cell, or some byte (43_status_interrupt.md R320). -/
theorem snapAfterFail_cases (d : Draw) (previous : Option Byte) :
    snapAfterFail d previous = previous ∨ ∃ b, snapAfterFail d previous = some b := by
  unfold snapAfterFail
  cases d.snap with
  | none => exact .inl rfl
  | some b => exact .inr ⟨b, rfl⟩

/-- What a failed request write leaves in slot 0: the old or the new word (42_pdo_rdo_registers.md R285). -/
theorem slotAfterFail_cases (d : Draw) (previous : Option Word) (w : Word) :
    slotAfterFail d previous w = previous ∨ slotAfterFail d previous w = some w := by
  unfold slotAfterFail
  cases d.sent with
  | false => exact .inl rfl
  | true => exact .inr rfl

end Sys2Proof.Machine
end

