-- ==== Sys2Proof/Laws/PerInstr.lean ====
section
/-! SUPPORT. Statements about every instruction as syntax, one lemma per constructor: the call an operation form is
encoded as names the operation of its opcode-table row (30_encoding.md R135). -/

namespace Sys2Proof.Laws

/-- The operation of 30_encoding.md R135 that a row of spec/opcode_table.json is a form of. -/
def CallName.opOf : Instr → OpName
  | .decodePdoFixed _ => .decodePdo
  | .decodePdoBattery _ => .decodePdo
  | .decodePdoVariable _ => .decodePdo
  | .decodePdoPps _ => .decodePdo
  | .decodePdoEprAvs _ => .decodePdo
  | .decodePdoOpaque _ => .decodePdo
  | .encodeRdoFixed _ => .encodeRdo
  | .encodeRdoBattery _ => .encodeRdo
  | .encodeRdoPps _ => .encodeRdo
  | .encodeRdoAvs _ => .encodeRdo
  | .decodeRdoFixed _ => .decodeRdo
  | .decodeRdoBattery _ => .decodeRdo
  | .decodeRdoPps _ => .decodeRdo
  | .decodeRdoAvs _ => .decodeRdo
  | .checkRdo _ _ => .checkRdo
  | .decodeStatus _ => .decodeStatus
  | .refreshPdos => .refreshPdos
  | .writeRdo _ => .writeRdo
  | .resetRdo => .resetRdo
  | .readStatus => .readStatus
  | .setMask _ => .setMask
  | .getMask => .getMask
  | .readVoltage => .readVoltage
  | .readCurrent => .readCurrent
  | .readTemp => .readTemp
  | .setOcp _ => .setOcp
  | .getOcp => .getOcp
  | .setOtp _ => .setOtp
  | .getOtp => .getOtp
  | .setDr _ => .setDr
  | .getDr => .getDr
  | .setNtc _ _ => .setNtc
  | .getNtc _ => .getNtc
  | .isPresent => .isPresent
  | .init => .init
  | .getPdoCnt => .getPdoCnt
  | .getPdo _ => .getPdo
  | .getLastRdo => .getLastRdo
  | .getStatus => .getStatus
  | .getLastVoltage => .getLastVoltage
  | .getLastCurrent => .getLastCurrent
  | .getLastTemp => .getLastTemp
  | .pollInt => .pollInt

/-- The call of an operation form names its operation. -/
def CallName.Statement (i : Instr) : Prop := (encode i).op = CallName.opOf i

theorem CallName.decodePdoFixed (w : Word) : CallName.Statement (.decodePdoFixed w) := rfl
theorem CallName.decodePdoBattery (w : Word) : CallName.Statement (.decodePdoBattery w) := rfl
theorem CallName.decodePdoVariable (w : Word) : CallName.Statement (.decodePdoVariable w) := rfl
theorem CallName.decodePdoPps (w : Word) : CallName.Statement (.decodePdoPps w) := rfl
theorem CallName.decodePdoEprAvs (w : Word) : CallName.Statement (.decodePdoEprAvs w) := rfl
theorem CallName.decodePdoOpaque (w : Word) : CallName.Statement (.decodePdoOpaque w) := rfl
theorem CallName.encodeRdoFixed (r : FixedRdo) : CallName.Statement (.encodeRdoFixed r) := rfl
theorem CallName.encodeRdoBattery (r : BatteryRdo) : CallName.Statement (.encodeRdoBattery r) := rfl
theorem CallName.encodeRdoPps (r : PpsRdo) : CallName.Statement (.encodeRdoPps r) := rfl
theorem CallName.encodeRdoAvs (r : AvsRdo) : CallName.Statement (.encodeRdoAvs r) := rfl
theorem CallName.decodeRdoFixed (w : Word) : CallName.Statement (.decodeRdoFixed w) := rfl
theorem CallName.decodeRdoBattery (w : Word) : CallName.Statement (.decodeRdoBattery w) := rfl
theorem CallName.decodeRdoPps (w : Word) : CallName.Statement (.decodeRdoPps w) := rfl
theorem CallName.decodeRdoAvs (w : Word) : CallName.Statement (.decodeRdoAvs w) := rfl
theorem CallName.checkRdo (p : Pdo) (r : Rdo) : CallName.Statement (.checkRdo p r) := rfl
theorem CallName.decodeStatus (b : Byte) : CallName.Statement (.decodeStatus b) := rfl
theorem CallName.refreshPdos : CallName.Statement (.refreshPdos) := rfl
theorem CallName.writeRdo (r : Rdo) : CallName.Statement (.writeRdo r) := rfl
theorem CallName.resetRdo : CallName.Statement (.resetRdo) := rfl
theorem CallName.readStatus : CallName.Statement (.readStatus) := rfl
theorem CallName.setMask (m : Byte) : CallName.Statement (.setMask m) := rfl
theorem CallName.getMask : CallName.Statement (.getMask) := rfl
theorem CallName.readVoltage : CallName.Statement (.readVoltage) := rfl
theorem CallName.readCurrent : CallName.Statement (.readCurrent) := rfl
theorem CallName.readTemp : CallName.Statement (.readTemp) := rfl
theorem CallName.setOcp (mA : Nat) : CallName.Statement (.setOcp mA) := rfl
theorem CallName.getOcp : CallName.Statement (.getOcp) := rfl
theorem CallName.setOtp (c : Nat) : CallName.Statement (.setOtp c) := rfl
theorem CallName.getOtp : CallName.Statement (.getOtp) := rfl
theorem CallName.setDr (c : Nat) : CallName.Statement (.setDr c) := rfl
theorem CallName.getDr : CallName.Statement (.getDr) := rfl
theorem CallName.setNtc (k ohm : Nat) : CallName.Statement (.setNtc k ohm) := rfl
theorem CallName.getNtc (k : Nat) : CallName.Statement (.getNtc k) := rfl
theorem CallName.isPresent : CallName.Statement (.isPresent) := rfl
theorem CallName.init : CallName.Statement (.init) := rfl
theorem CallName.getPdoCnt : CallName.Statement (.getPdoCnt) := rfl
theorem CallName.getPdo (i : Nat) : CallName.Statement (.getPdo i) := rfl
theorem CallName.getLastRdo : CallName.Statement (.getLastRdo) := rfl
theorem CallName.getStatus : CallName.Statement (.getStatus) := rfl
theorem CallName.getLastVoltage : CallName.Statement (.getLastVoltage) := rfl
theorem CallName.getLastCurrent : CallName.Statement (.getLastCurrent) := rfl
theorem CallName.getLastTemp : CallName.Statement (.getLastTemp) := rfl
theorem CallName.pollInt : CallName.Statement (.pollInt) := rfl

end Sys2Proof.Laws
end

