-- ==== Sys2Proof/Tests/Slice0.lean ====
section
/-! SUPPORT. Tests of the model, each by evaluation in the kernel. Expected values come from 95_test_vectors.md (X: its
section 1, D: its section 2, P: its section 3) or are worked out by hand from the rule a comment names. The last part
shows, for each statement of the certificate that has hypotheses, values that meet them all. -/

namespace Sys2Proof.Tests

open Sys2Proof.Machine

/-! ## Helpers -/

/-- A transaction that succeeds and returns these bytes, the rest 0. -/
def answer (bytes : List Byte) : Draw where
  ok := true
  bytes := Vector.ofFn fun j => bytes.getD j.val 0#8
  snap := none
  sent := false
  amount := 7
  level := true

/-- A transaction that fails, with what it leaves behind. -/
def failure (snap : Option Byte) (sent : Bool) : Draw := { answer [] with ok := false, snap, sent }

/-- The block after P1, with the measurements of P3. -/
def ready : Block where
  slot := #v[some 0x2004B12C#32, some 0x0A01912C#32, some 0x0002D12C#32, some 0x0003C12C#32, some 0xC0DC213C#32,
    some 0#32, some 0#32, some 0#32]
  pdoCount := some 4
  statusSnap := some 0x03#8
  vSnap := some 0x64#8
  iSnap := some 0x32#8
  tSnap := some 0xF6#8

/-- The machine with that block, a device that knows nothing, and these answers to come. -/
def up (tape : List Draw) : State := { State.reset with block := ready, tape }

/-- The machine at reset with these answers to come. -/
def fresh (tape : List Draw) : State := { State.reset with tape }

/-- What an operation returns, nothing where the machine stops. -/
def got : Host.Outcome State Fault Refusal → Option OpResult
  | .next t => t.result
  | .fault _ => none
  | .refused _ => none

/-- The state an operation leaves; the reset state where the machine stops. -/
def left : Host.Outcome State Fault Refusal → State
  | .next t => t
  | .fault _ => State.reset
  | .refused _ => State.reset

/-- The fault the machine stops with, if it does. -/
def stop : Host.Outcome State Fault Refusal → Option Fault
  | .next _ => none
  | .fault f => some f
  | .refused _ => none

/-- The refusal the machine stops with, if it does. -/
def refusal : Host.Outcome State Fault Refusal → Option Refusal
  | .next _ => none
  | .fault _ => none
  | .refused r => some r

/-- What a call decodes to under the default LAYOUT. -/
def decoded (c : Call) : Except CallError Instr := decode defaultLayout c

/-- The form is the one its operand selects under the default LAYOUT. -/
def formed (i : Instr) : Bool := i.wellFormed defaultLayout

/-- A header with every flag 0. -/
def plain (p : ObjPos) : Hdr := ⟨p, 0#1, 0#1, 0#1, 0#1, 0#1, 0#1⟩

def pos1 : ObjPos := ⟨1#4, rfl⟩
def pos2 : ObjPos := ⟨2#4, rfl⟩
def pos3 : ObjPos := ⟨3#4, rfl⟩
def pos4 : ObjPos := ⟨4#4, rfl⟩
def pos5 : ObjPos := ⟨5#4, rfl⟩
def pos15 : ObjPos := ⟨15#4, rfl⟩

def fixedReq : FixedRdo := ⟨plain pos2, 300#10, 300#10⟩
def batteryReq : BatteryRdo := ⟨plain pos2, 240#10, 240#10⟩
def ppsReq : PpsRdo := ⟨plain pos4, 450#12, 40#7⟩
def avsReq : AvsRdo := ⟨plain pos4, 800#12, 60#7⟩

/-! ## Decoding: words and calls written out from 30_encoding.md -/

/-- Table words bit by bit: R114 Fixed, R115 Battery, R116 Variable, R117 PPS, R118 EPR_AVS, R119 Opaque, R132. -/
theorem test_words_decode :
    decodeTableWord 32 0b00001010000000011001000100101100 = some (.decodePdoFixed 0x0A01912C#32) ∧
    decodeTableWord 32 0b01011010010001001011000110010000 = some (.decodePdoBattery 0x5A44B190#32) ∧
    decodeTableWord 32 0b10011010010000011001000011001000 = some (.decodePdoVariable 0x9A4190C8#32) ∧
    decodeTableWord 32 0b11000000110111000010000100111100 = some (.decodePdoPps 0xC0DC213C#32) ∧
    decodeTableWord 32 0b11010010001100001001011010001100 = some (.decodePdoEprAvs 0xD230968C#32) ∧
    decodeTableWord 32 0b11100000000000000001001000110100 = some (.decodePdoOpaque 0xE0001234#32) ∧
    decodeTableWord 32 0b11110000000000000000000000000000 = some (.decodePdoOpaque 0xF0000000#32) ∧
    decodeTableWord 8 0b10000001 = some (.decodeStatus 0x81#8) ∧
    decodeTableWord 0 0 = none := by decide

/-- ENCODE_RDO's operands, then DECODE_RDO's with the words of R123 to R126 written out bit by bit. -/
theorem test_request_calls_decode :
    decoded ⟨.encodeRdo, [0, 1, 0, 0, 1, 1, 0, 0, 300, 300]⟩ =
      .ok (.encodeRdoFixed ⟨⟨pos1, 0#1, 0#1, 1#1, 1#1, 0#1, 0#1⟩, 300#10, 300#10⟩) ∧
    decoded ⟨.encodeRdo, [1, 2, 0, 0, 0, 0, 0, 0, 240, 240]⟩ = .ok (.encodeRdoBattery batteryReq) ∧
    decoded ⟨.encodeRdo, [2, 4, 0, 0, 0, 0, 0, 0, 450, 40]⟩ = .ok (.encodeRdoPps ppsReq) ∧
    decoded ⟨.encodeRdo, [3, 4, 0, 0, 0, 0, 0, 0, 800, 60]⟩ = .ok (.encodeRdoAvs avsReq) ∧
    decoded ⟨.decodeRdo, [0, 0b00010011000001001011000100101100]⟩ = .ok (.decodeRdoFixed 0x1304B12C#32) ∧
    decoded ⟨.decodeRdo, [1, 0b00100000000000111100000011110000]⟩ = .ok (.decodeRdoBattery 0x2003C0F0#32) ∧
    decoded ⟨.decodeRdo, [2, 0b00110000000000111000010000101000]⟩ = .ok (.decodeRdoPps 0x30038428#32) ∧
    decoded ⟨.decodeRdo, [3, 0b01000000000001100100000000111100]⟩ = .ok (.decodeRdoAvs 0x4006403C#32) ∧
    decoded ⟨.checkRdo, [3, 0, 110, 33, 60, 2, 4, 0, 0, 0, 0, 0, 0, 450, 40]⟩ =
      .ok (.checkRdo (.pps ⟨0#1, 110#8, 33#8, 60#7⟩) (.pps ppsReq)) ∧
    decoded ⟨.writeRdo, [0, 2, 0, 0, 0, 0, 0, 0, 300, 300]⟩ = .ok (.writeRdo (.fixed fixedReq)) := by decide

/-- The calls without operands (R135). -/
theorem test_plain_calls_decode :
    decoded ⟨.refreshPdos, []⟩ = .ok .refreshPdos ∧ decoded ⟨.resetRdo, []⟩ = .ok .resetRdo ∧
    decoded ⟨.readStatus, []⟩ = .ok .readStatus ∧ decoded ⟨.getMask, []⟩ = .ok .getMask ∧
    decoded ⟨.readVoltage, []⟩ = .ok .readVoltage ∧ decoded ⟨.readCurrent, []⟩ = .ok .readCurrent ∧
    decoded ⟨.readTemp, []⟩ = .ok .readTemp ∧ decoded ⟨.getOcp, []⟩ = .ok .getOcp ∧
    decoded ⟨.getOtp, []⟩ = .ok .getOtp ∧ decoded ⟨.getDr, []⟩ = .ok .getDr ∧
    decoded ⟨.isPresent, []⟩ = .ok .isPresent ∧ decoded ⟨.init, []⟩ = .ok .init ∧
    decoded ⟨.getPdoCnt, []⟩ = .ok .getPdoCnt ∧ decoded ⟨.getLastRdo, []⟩ = .ok .getLastRdo ∧
    decoded ⟨.getStatus, []⟩ = .ok .getStatus ∧ decoded ⟨.getLastVoltage, []⟩ = .ok .getLastVoltage ∧
    decoded ⟨.getLastCurrent, []⟩ = .ok .getLastCurrent ∧ decoded ⟨.getLastTemp, []⟩ = .ok .getLastTemp ∧
    decoded ⟨.pollInt, []⟩ = .ok .pollInt := by decide

/-- The calls with numbers (R135, R138): a byte, or any natural. -/
theorem test_number_calls_decode :
    decoded ⟨.setMask, [5]⟩ = .ok (.setMask 5#8) ∧ decoded ⟨.setOcp, [3020]⟩ = .ok (.setOcp 3020) ∧
    decoded ⟨.setOtp, [300]⟩ = .ok (.setOtp 300) ∧ decoded ⟨.setDr, [70]⟩ = .ok (.setDr 70) ∧
    decoded ⟨.setNtc, [50, 4161]⟩ = .ok (.setNtc 50 4161) ∧ decoded ⟨.getNtc, [30]⟩ = .ok (.getNtc 30) ∧
    decoded ⟨.getPdo, [9]⟩ = .ok (.getPdo 9) ∧ decoded ⟨.decodeStatus, [129]⟩ = .ok (.decodeStatus 0x81#8) := by decide

/-- Calls outside the domains of R138 are no operation: position 0, a field too wide, an operand too few or too many. -/
theorem test_malformed_calls_refused :
    decoded ⟨.encodeRdo, [0, 0, 0, 0, 0, 0, 0, 0, 1, 1]⟩ = .error .positionZero ∧
    decoded ⟨.setMask, [256]⟩ = .error (.outsideDomain 256) ∧
    decoded ⟨.decodeRdo, [4, 0]⟩ = .error (.outsideDomain 4) ∧
    decoded ⟨.encodeRdo, [2, 1, 0, 0, 0, 0, 0, 0, 1, 128]⟩ = .error (.outsideDomain 128) ∧
    decoded ⟨.setNtc, [25]⟩ = .error .missingOperand ∧
    decoded ⟨.init, [1]⟩ = .error .extraOperand := by decide

/-- A DECODE_PDO form whose word has another variant is ill formed (R113). -/
theorem test_ill_formed_refused :
    formed (.decodePdoFixed 0x5A44B190#32) = false ∧
    formed (.decodePdoBattery 0x9A4190C8#32) = false ∧
    formed (.decodePdoVariable 0xC0DC213C#32) = false ∧
    formed (.decodePdoPps 0xD230968C#32) = false ∧
    formed (.decodePdoEprAvs 0xE0001234#32) = false ∧
    formed (.decodePdoOpaque 0x0A01912C#32) = false := by decide

/-! ## The parameter LAYOUT (00_scope.md R10, D1) -/

/-- A layout in which a Fixed PDO's voltage and current stand in each other's place. -/
def swapped : Layout := { defaultLayout with fixedPdo := { fixedPdoLayout with voltage := ⟨9, 0⟩, maxCurrent := ⟨19, 10⟩ } }

/-- Refused as layouts: two fields on one bit, a field wider than its place, a field past bit 31, equal tag values. -/
theorem test_layout_wf :
    defaultLayout.wf = true ∧ swapped.wf = true ∧
    Layout.wf { defaultLayout with hdr := { hdrLayout with giveBack := bitAt 28 } } = false ∧
    Layout.wf { defaultLayout with hdr := { hdrLayout with objPos := ⟨31, 29⟩ } } = false ∧
    Layout.wf { defaultLayout with typeTag := ⟨32, 31⟩ } = false ∧
    Layout.wf { defaultLayout with tagBattery := 0#2 } = false := by decide

/-- R123 to R126: the bits no field covers. -/
theorem test_reserved_bits :
    reservedBits defaultLayout .fixed = 0x00300000#32 ∧ reservedBits defaultLayout .battery = 0x00300000#32 ∧
    reservedBits defaultLayout .pps = 0x00200180#32 ∧ reservedBits defaultLayout .avs = 0x00200180#32 := by decide

/-- Another layout gives another reading of the same word. -/
theorem test_layout_is_a_parameter :
    got (exec (.decodePdoFixed 0x0A01912C#32)
      { State.reset with params := { defaultParams with layout := swapped } }) =
      some (.ok (.pdo (.fixed ⟨0#1, 0#1, 1#1, 0#1, 1#1, 0#1, 0#1, 0#2, 300#10, 100#10⟩))) := by decide

/-! ## DECODE_PDO (D 2.1) -/

theorem test_decode_pdo_fixed :
    got (exec (.decodePdoFixed 0x0A01912C#32) State.reset) =
      some (.ok (.pdo (.fixed ⟨0#1, 0#1, 1#1, 0#1, 1#1, 0#1, 0#1, 0#2, 100#10, 300#10⟩))) := by decide

theorem test_decode_pdo_fixed_all_ones :
    got (exec (.decodePdoFixed 0x3FFFFFFF#32) State.reset) =
      some (.ok (.pdo (.fixed ⟨1#1, 1#1, 1#1, 1#1, 1#1, 1#1, 1#1, 3#2, 1023#10, 1023#10⟩))) := by decide

theorem test_decode_pdo_battery :
    got (exec (.decodePdoBattery 0x5A44B190#32) State.reset) =
      some (.ok (.pdo (.battery ⟨420#10, 300#10, 400#10⟩))) := by decide

theorem test_decode_pdo_variable :
    got (exec (.decodePdoVariable 0x9A4190C8#32) State.reset) =
      some (.ok (.pdo (.variableSupply ⟨420#10, 100#10, 200#10⟩))) := by decide

/-- Reserved bits 26, 25, 16 and 7 are set. -/
theorem test_decode_pdo_pps :
    got (exec (.decodePdoPps 0xC6DD21BC#32) State.reset) = some (.ok (.pdo (.pps ⟨0#1, 110#8, 33#8, 60#7⟩))) := by decide

theorem test_decode_pdo_pps_limited :
    got (exec (.decodePdoPps 0xC9A42164#32) State.reset) = some (.ok (.pdo (.pps ⟨1#1, 210#8, 33#8, 100#7⟩))) := by decide

theorem test_decode_pdo_epr_avs :
    got (exec (.decodePdoEprAvs 0xD230968C#32) State.reset) = some (.ok (.pdo (.eprAvs ⟨0#2, 280#9, 150#8, 140#8⟩))) := by
  decide

theorem test_decode_pdo_epr_avs_peak :
    got (exec (.decodePdoEprAvs 0xDFC096F0#32) State.reset) = some (.ok (.pdo (.eprAvs ⟨3#2, 480#9, 150#8, 240#8⟩))) := by
  decide

theorem test_decode_pdo_opaque :
    got (exec (.decodePdoOpaque 0xE0001234#32) State.reset) = some (.ok (.pdo (.opaquePdo 0xE0001234#32))) := by decide

/-! ## ENCODE_RDO, DECODE_RDO, CHECK_RDO (D 2.2) -/

theorem test_encode_rdo_fixed :
    got (exec (.encodeRdoFixed ⟨⟨pos1, 0#1, 0#1, 1#1, 1#1, 0#1, 0#1⟩, 300#10, 300#10⟩) State.reset) =
      some (.ok (.word 0x1304B12C#32)) ∧
    got (exec (.encodeRdoFixed ⟨⟨pos15, 1#1, 1#1, 1#1, 1#1, 1#1, 1#1⟩, 1023#10, 1023#10⟩) State.reset) =
      some (.ok (.word 0xFFCFFFFF#32)) := by decide

theorem test_encode_rdo_fixed_order :
    got (exec (.encodeRdoFixed ⟨⟨pos2, 0#1, 1#1, 0#1, 0#1, 0#1, 0#1⟩, 150#10, 300#10⟩) State.reset) =
      some (.ok (.word 0x2402592C#32)) := by decide

theorem test_encode_rdo_battery :
    got (exec (.encodeRdoBattery batteryReq) State.reset) = some (.ok (.word 0x2003C0F0#32)) := by decide

theorem test_encode_rdo_pps :
    got (exec (.encodeRdoPps ppsReq) State.reset) = some (.ok (.word 0x40038428#32)) ∧
    got (exec (.encodeRdoPps ⟨⟨pos15, 1#1, 1#1, 1#1, 1#1, 1#1, 1#1⟩, 4095#12, 127#7⟩) State.reset) =
      some (.ok (.word 0xFFDFFE7F#32)) := by decide

theorem test_encode_rdo_avs : got (exec (.encodeRdoAvs avsReq) State.reset) = some (.ok (.word 0x4006403C#32)) := by decide

/-- Reserved bits 21 and 20 are set and ignored. -/
theorem test_decode_rdo_fixed :
    got (exec (.decodeRdoFixed 0x1034B12C#32) State.reset) =
      some (.ok (.rdo (.fixed ⟨plain pos1, 300#10, 300#10⟩))) := by decide

theorem test_decode_rdo_fixed_sentinel :
    got (exec (.decodeRdoFixed 0#32) State.reset) = some (.err (.invalidPosition 0)) := by decide

theorem test_decode_rdo_battery :
    got (exec (.decodeRdoBattery 0x0FFFFFFF#32) State.reset) = some (.err (.invalidPosition 0)) ∧
    got (exec (.decodeRdoBattery 0x2003C0F0#32) State.reset) = some (.ok (.rdo (.battery batteryReq))) := by decide

theorem test_decode_rdo_pps :
    got (exec (.decodeRdoPps 0x1004B12C#32) State.reset) =
      some (.ok (.rdo (.pps ⟨plain pos1, 600#12, 44#7⟩))) := by decide

theorem test_decode_rdo_avs :
    got (exec (.decodeRdoAvs 0x4006403C#32) State.reset) = some (.ok (.rdo (.avs avsReq))) := by decide

/-- The lower and the upper bound are inclusive; a Variable PDO pairs with a Fixed request. -/
theorem test_check_rdo_true :
    got (exec (.checkRdo (.pps ⟨0#1, 110#8, 33#8, 60#7⟩) (.pps ⟨plain pos4, 165#12, 40#7⟩)) State.reset) =
      some (.ok (.bool true)) ∧
    got (exec (.checkRdo (.eprAvs ⟨0#2, 280#9, 150#8, 140#8⟩) (.avs ⟨plain pos5, 1120#12, 100#7⟩)) State.reset) =
      some (.ok (.bool true)) ∧
    got (exec (.checkRdo (.variableSupply ⟨420#10, 100#10, 200#10⟩) (.fixed ⟨plain pos3, 200#10, 200#10⟩))
      State.reset) = some (.ok (.bool true)) := by decide

theorem test_check_rdo_false :
    got (exec (.checkRdo (.pps ⟨0#1, 110#8, 33#8, 60#7⟩) (.pps ⟨plain pos4, 164#12, 40#7⟩)) State.reset) =
      some (.ok (.bool false)) ∧
    got (exec (.checkRdo (.pps ⟨0#1, 110#8, 33#8, 60#7⟩) (.pps ⟨plain pos4, 450#12, 61#7⟩)) State.reset) =
      some (.ok (.bool false)) ∧
    got (exec (.checkRdo (.battery ⟨0#10, 0#10, 400#10⟩) (.battery ⟨plain pos2, 401#10, 400#10⟩)) State.reset) =
      some (.ok (.bool false)) ∧
    got (exec (.checkRdo (.eprAvs ⟨0#2, 280#9, 150#8, 140#8⟩) (.avs ⟨plain pos5, 1124#12, 100#7⟩)) State.reset) =
      some (.ok (.bool false)) ∧
    got (exec (.checkRdo (.opaquePdo 0xE0001234#32) (.fixed fixedReq)) State.reset) = some (.ok (.bool false)) := by
  decide

/-! ## PDO table and request register (D 2.3, P1, P2, P4) -/

/-- The table of P1 and a count byte of 9. -/
theorem test_refresh_pdos :
    let s := fresh [answer [0x2C#8, 0x91#8, 0x01#8, 0x0A#8, 0x2C#8, 0xD1#8, 0x02#8, 0x00#8, 0x2C#8, 0xC1#8, 0x03#8,
      0x00#8, 0x3C#8, 0x21#8, 0xDC#8, 0xC0#8], answer [0x09#8]]
    (left (exec .refreshPdos s)).block =
      { Block.reset with
        slot := #v[none, some 0x0A01912C#32, some 0x0002D12C#32, some 0x0003C12C#32, some 0xC0DC213C#32, some 0#32,
          some 0#32, some 0#32]
        pdoCount := some 7 } := by decide

/-- P4: the count read fails, the old table and the old count stay. -/
theorem test_refresh_pdos_half :
    let s := up [answer [0x2C#8, 0x91#8, 0x01#8, 0x0A#8], failure none false]
    got (exec .refreshPdos s) = some (.err .transportFailure) ∧ (left (exec .refreshPdos s)).block = ready := by decide

theorem test_get_pdo_cnt :
    got (exec .getPdoCnt (up [])) = some (.ok (.count 4)) ∧
    stop (exec .getPdoCnt State.reset) = some (.unwritten .pdoCount) := by decide

theorem test_get_pdo :
    got (exec (.getPdo 4) (up [])) = some (.ok (.pdo (.pps ⟨0#1, 110#8, 33#8, 60#7⟩))) ∧
    stop (exec (.getPdo 1) State.reset) = some (.unwritten .pdoCount) := by decide

theorem test_get_pdo_positions :
    got (exec (.getPdo 0) State.reset) = some (.err (.invalidPosition 0)) ∧
    got (exec (.getPdo 8) State.reset) = some (.err (.invalidPosition 8)) ∧
    got (exec (.getPdo 5) (up [])) = some (.err (.invalidPosition 5)) := by decide

theorem test_get_last_rdo :
    got (exec .getLastRdo (up [])) = some (.ok (.word 0x2004B12C#32)) ∧
    stop (exec .getLastRdo State.reset) = some (.unwritten (.slot 0)) := by decide

/-- P2: a PPS request to slot 4; the wire bytes are 28 84 03 40. -/
theorem test_write_rdo :
    let t := left (exec (.writeRdo (.pps ppsReq)) (up [answer []]))
    t.result = some (.ok .unit) ∧ t.block.slot[0] = some 0x40038428#32 ∧
    t.bus = [.write 0x51#7 0x30#8 [0x28#8, 0x84#8, 0x03#8, 0x40#8] true] := by decide

/-- P2: a Fixed request to the PPS slot, then a position above the count; the failing write may leave the new word. -/
theorem test_write_rdo_errors :
    got (exec (.writeRdo (.fixed ⟨plain pos4, 100#10, 100#10⟩)) (up [])) = some (.err (.variantMismatch 4)) ∧
    got (exec (.writeRdo (.pps ⟨plain pos5, 450#12, 40#7⟩)) (up [])) = some (.err (.invalidPosition 5)) ∧
    (left (exec (.writeRdo (.pps ppsReq)) (up [failure none true]))).block.slot[0] = some 0x40038428#32 ∧
    (left (exec (.writeRdo (.pps ppsReq)) (up [failure none false]))).block.slot[0] = some 0x2004B12C#32 := by decide

theorem test_reset_rdo :
    let t := left (exec .resetRdo (up [answer []]))
    t.block.slot[0] = some 0#32 ∧ t.bus = [.write 0x51#7 0x30#8 [0#8, 0#8, 0#8, 0#8] true] := by decide

/-! ## Status, mask, poll (D 2.4) -/

theorem test_read_status :
    (left (exec .readStatus (fresh [answer [0x03#8]]))).block.statusSnap = some 0x03#8 ∧
    (left (exec .readStatus (up [failure (some 0xAB#8) false]))).block.statusSnap = some 0xAB#8 ∧
    (left (exec .readStatus (up [failure none false]))).block.statusSnap = some 0x03#8 := by decide

theorem test_get_status :
    got (exec .getStatus (up [])) = some (.ok (.byte 0x03#8)) ∧
    stop (exec .getStatus State.reset) = some (.unwritten .statusSnap) := by decide

/-- X8. -/
theorem test_decode_status :
    got (exec (.decodeStatus 0x81#8) State.reset) =
      some (.ok (.status ⟨1#1, 0#1, 0#1, 0#1, 0#1, 0#1, 0#1, 1#1⟩)) := by decide

theorem test_decode_status_bits :
    got (exec (.decodeStatus 0x08#8) State.reset) =
      some (.ok (.status ⟨0#1, 0#1, 0#1, 0#1, 1#1, 0#1, 0#1, 0#1⟩)) ∧
    got (exec (.decodeStatus 0x42#8) State.reset) =
      some (.ok (.status ⟨0#1, 1#1, 0#1, 0#1, 0#1, 0#1, 1#1, 0#1⟩)) := by decide

theorem test_set_mask :
    (left (exec (.setMask 0x05#8) (fresh [answer []]))).bus = [.write 0x51#7 0x1E#8 [0x05#8] true] := by decide

/-- The mask that was set is read back whatever byte the answer carries; after a failed SET_MASK any byte is. -/
theorem test_get_mask :
    got (exec .getMask (left (exec (.setMask 0x05#8) (fresh [answer [], answer [0x77#8]])))) =
      some (.ok (.byte 0x05#8)) ∧
    got (exec .getMask (left (exec (.setMask 0x05#8) (fresh [failure none false, answer [0x77#8]])))) =
      some (.ok (.byte 0x77#8)) := by decide

theorem test_poll_int : got (exec .pollInt (fresh [answer []])) = some (.ok (.bool true)) := by decide

/-! ## Measurements, thresholds, NTC (D 2.5) -/

theorem test_read_voltage :
    got (exec .readVoltage (fresh [answer [0x64#8]])) = some (.ok (.milliVolt 8000)) ∧
    got (exec .readVoltage (fresh [answer [0xFF#8]])) = some (.ok (.milliVolt 20400)) := by decide

theorem test_read_current :
    got (exec .readCurrent (fresh [answer [0x32#8]])) = some (.ok (.milliAmp 1200)) ∧
    (left (exec .readCurrent (fresh [answer [0x32#8]]))).block.iSnap = some 0x32#8 := by decide

theorem test_read_temp :
    got (exec .readTemp (fresh [answer [0xF6#8]])) = some (.ok (.celsius (-10))) ∧
    got (exec .readTemp (fresh [answer [0x80#8]])) = some (.ok (.celsius (-128))) ∧
    got (exec .readTemp (fresh [answer [0x7F#8]])) = some (.ok (.celsius 127)) := by decide

theorem test_get_last_voltage :
    got (exec .getLastVoltage (up [])) = some (.ok (.milliVolt 8000)) ∧
    stop (exec .getLastVoltage State.reset) = some (.unwritten .vSnap) := by decide

theorem test_get_last_current : got (exec .getLastCurrent (up [])) = some (.ok (.milliAmp 1200)) := by decide

theorem test_get_last_temp : got (exec .getLastTemp (up [])) = some (.ok (.celsius (-10))) := by decide

theorem test_set_ocp :
    (left (exec (.setOcp 3020) (fresh [answer []]))).bus = [.write 0x51#7 0x23#8 [0x3C#8] true] ∧
    (left (exec (.setOcp 12799) (fresh [answer []]))).bus = [.write 0x51#7 0x23#8 [0xFF#8] true] := by decide

theorem test_set_ocp_range : got (exec (.setOcp 12800) State.reset) = some (.err (.argumentOutOfRange 12800)) := by decide

theorem test_get_ocp :
    got (exec .getOcp (left (exec (.setOcp 149) (fresh [answer [], answer []])))) = some (.ok (.milliAmp 100)) := by decide

theorem test_set_otp :
    (left (exec (.setOtp 85) (fresh [answer []]))).bus = [.write 0x51#7 0x24#8 [0x55#8] true] ∧
    got (exec (.setOtp 256) State.reset) = some (.err (.argumentOutOfRange 256)) := by decide

theorem test_get_otp :
    got (exec .getOtp (left (exec (.setOtp 255) (fresh [answer [], answer []])))) = some (.ok (.degrees 255)) := by decide

theorem test_set_dr :
    (left (exec (.setDr 70) (fresh [answer []]))).bus = [.write 0x51#7 0x25#8 [0x46#8] true] := by decide

theorem test_get_dr : got (exec .getDr (fresh [answer [0x46#8]])) = some (.ok (.degrees 70)) := by decide

theorem test_set_ntc :
    (left (exec (.setNtc 25 10000) (fresh [answer []]))).bus = [.write 0x51#7 0x28#8 [0x10#8, 0x27#8] true] ∧
    (left (exec (.setNtc 100 65535) (fresh [answer []]))).bus = [.write 0x51#7 0x2E#8 [0xFF#8, 0xFF#8] true] := by decide

theorem test_set_ntc_range :
    got (exec (.setNtc 100 65536) State.reset) = some (.err (.argumentOutOfRange 65536)) ∧
    got (exec (.setNtc 30 1000) State.reset) = some (.err (.argumentOutOfRange 30)) := by decide

theorem test_get_ntc :
    got (exec (.getNtc 50) (left (exec (.setNtc 50 4161) (fresh [answer [], answer []])))) = some (.ok (.ohm 4161)) ∧
    got (exec (.getNtc 75) (fresh [answer [0x10#8, 0x27#8]])) = some (.ok (.ohm 10000)) := by decide

theorem test_get_ntc_range : got (exec (.getNtc 30) State.reset) = some (.err (.argumentOutOfRange 30)) := by decide

/-! ## Device control (D 2.6) -/

theorem test_is_present :
    got (exec .isPresent (fresh [answer []])) = some (.ok (.bool true)) ∧
    got (exec .isPresent (fresh [failure none false])) = some (.ok (.bool false)) := by decide

/-- X14. -/
theorem test_init :
    (left (exec .init (fresh [answer [], answer [], answer [], answer []]))).bus =
      [.write 0x51#7 0x1E#8 [0x01#8] true, .write 0x51#7 0x23#8 [0xFF#8] true, .write 0x51#7 0x24#8 [0xFF#8] true,
       .write 0x51#7 0x25#8 [0xFF#8] true] := by decide

/-- The write to 0x23 fails: 0x1E is written, 0x24 and 0x25 are not issued. -/
theorem test_init_failure :
    let t := left (exec .init (fresh [answer [], failure none false, answer []]))
    t.result = some (.err .transportFailure) ∧ t.device = [(0x1E, 0x01#8)] ∧
    t.bus = [.write 0x51#7 0x1E#8 [0x01#8] true, .write 0x51#7 0x23#8 [0xFF#8] false] := by decide

/-! ## The step -/

/-- A step runs the call at the index and moves past it; a malformed call is refused; with no call the block waits. -/
theorem test_step :
    (left (step { up [] with program := [⟨.getPdoCnt, []⟩] })).index = 1 ∧
    got (step { up [] with program := [⟨.getPdoCnt, []⟩] }) = some (.ok (.count 4)) ∧
    refusal (step { up [] with program := [⟨.getPdo, []⟩] }) = some (.malformedCall .missingOperand) ∧
    left (step (up [])) = up [] ∧
    got (step (State.reset.withFetchWord 8 0x81)) =
      some (.ok (.status ⟨1#1, 0#1, 0#1, 0#1, 0#1, 0#1, 0#1, 1#1⟩)) := by decide

/-! ## Values that meet the hypotheses of the statements -/

/-- One transaction that succeeds and one that fails. -/
abbrev BothAnswers : Prop := (up [answer []]).draw.ok = true ∧ (up [failure none false]).draw.ok = false

/-- A state whose program is one call. -/
def calling (c : Call) (tape : List Draw) : State := { up tape with program := [c] }

/-- A machine fitted with another shunt. -/
def otherShunt : State := { up [answer []] with params := { defaultParams with shuntDefault := false } }

theorem test_meets_DecodeOfEncodeGivesTheOperationBack :
    ∀ i ∈ [Instr.decodePdoFixed 0x0A01912C#32, .decodePdoBattery 0x5A44B190#32, .decodePdoVariable 0x9A4190C8#32,
      .decodePdoPps 0xC0DC213C#32, .decodePdoEprAvs 0xD230968C#32, .decodePdoOpaque 0xFFFFFFFF#32, .setNtc 25 65536],
      i.wellFormed defaultLayout = true := by decide

theorem test_meets_EncodeOfDecodeGivesTheCallBack :
    decode defaultLayout ⟨.writeRdo, [1, 15, 0, 1, 0, 1, 0, 1, 1023, 0]⟩ =
      .ok (.writeRdo (.battery ⟨⟨pos15, 0#1, 1#1, 0#1, 1#1, 0#1, 1#1⟩, 1023#10, 0#10⟩)) := by decide

theorem test_meets_StepRunsTheDecodedOperation :
    (calling ⟨.getPdo, [4]⟩ []).program[(calling ⟨.getPdo, [4]⟩ []).index]? = some ⟨.getPdo, [4]⟩ ∧
    decode (calling ⟨.getPdo, [4]⟩ []).params.layout ⟨.getPdo, [4]⟩ = .ok (.getPdo 4) := by decide

theorem test_meets_IndexAdvancesByOneWhateverTheResult :
    ∃ t, (calling ⟨.getPdo, [0]⟩ []).index < (calling ⟨.getPdo, [0]⟩ []).program.length ∧
      step (calling ⟨.getPdo, [0]⟩ []) = .next t ∧ t.result = some (.err (.invalidPosition 0)) :=
  ⟨_, by decide, rfl, rfl⟩

theorem test_meets_StepWaitsOrRefusesWithoutAnOperation :
    (up []).program[(up []).index]? = none ∧
    (calling ⟨.setMask, [256]⟩ []).program[(calling ⟨.setMask, [256]⟩ []).index]? = some ⟨.setMask, [256]⟩ ∧
    decode (calling ⟨.setMask, [256]⟩ []).params.layout ⟨.setMask, [256]⟩ = .error (.outsideDomain 256) := by decide

/-- Each tag's smallest and largest words. -/
theorem test_meets_VariantFollowsTypeTagAndPowerRange :
    0x00000000#32 >>> 30 = 0#32 ∧ 0x3FFFFFFF#32 >>> 30 = 0#32 ∧ 0x40000000#32 >>> 30 = 1#32 ∧
    0x7FFFFFFF#32 >>> 30 = 1#32 ∧ 0x80000000#32 >>> 30 = 2#32 ∧ 0xBFFFFFFF#32 >>> 30 = 2#32 ∧
    0xC0000000#32 >>> 28 = 12#32 ∧ 0xCFFFFFFF#32 >>> 28 = 12#32 ∧ 0xD0000000#32 >>> 28 = 13#32 ∧
    0xDFFFFFFF#32 >>> 28 = 13#32 ∧ 0xE0000000#32 >>> 28 = 14#32 ∧ 0xFFFFFFFF#32 >>> 28 = 15#32 := by decide

theorem test_meets_PdoFieldsEqualShiftAndMask :
    variant defaultLayout 0x3FFFFFFF#32 = .fixed ∧ variant defaultLayout 0x40000000#32 = .battery ∧
    variant defaultLayout 0xBFFFFFFF#32 = .variableSupply ∧ variant defaultLayout 0xC0000000#32 = .pps ∧
    variant defaultLayout 0xDFFFFFFF#32 = .eprAvs ∧ variant defaultLayout 0xE0000000#32 = .opaquePdo := by decide

theorem test_meets_ReservedPdoBitsAreIgnored :
    (variant defaultLayout 0x0001912C#32 = .fixed ∧
      0x0001912C#32 &&& 0xFFBFFFFF#32 = 0x0041912C#32 &&& 0xFFBFFFFF#32) ∧
    (variant defaultLayout 0xC0DC213C#32 = .pps ∧
      0xC0DC213C#32 &&& 0xF9FEFF7F#32 = 0xC6DD21BC#32 &&& 0xF9FEFF7F#32) ∧
    (variant defaultLayout 0xD230968C#32 = .eprAvs ∧
      0xD230968C#32 &&& 0xFFFEFFFF#32 = 0xD231968C#32 &&& 0xFFFEFFFF#32) := by decide

theorem test_meets_OpaquePdoCarriesTheRawWord :
    variant State.reset.params.layout 0xE0000000#32 = .opaquePdo ∧ 0xE0000000#32 >>> 29 = 7#32 ∧
    0xFFFFFFFF#32 >>> 29 = 7#32 := by decide

theorem test_meets_EncodedRequestIsNeverTheSentinel : defaultLayout.wf = true ∧ swapped.wf = true := by decide

theorem test_meets_RequestRoundTrips :
    defaultLayout.wf = true ∧
    ((field 0x1004B12C#32 defaultLayout.hdr.objPos : BitVec 4) ≠ 0#4 ∧
      0x1004B12C#32 &&& reservedBits defaultLayout .fixed = 0#32) ∧
    ((field 0xFFDFFE7F#32 defaultLayout.hdr.objPos : BitVec 4) ≠ 0#4 ∧
      0xFFDFFE7F#32 &&& reservedBits defaultLayout .pps = 0#32) ∧
    decodeRdo defaultLayout .fixed 0x1034B12C#32 = some (.fixed ⟨plain pos1, 300#10, 300#10⟩) := by decide

theorem test_meets_DecodeRdoReadsFieldsOrRejectsPositionZero :
    State.reset.params.layout = defaultLayout ∧ (field 0x0FFFFFFF#32 defaultLayout.hdr.objPos : BitVec 4) = 0#4 ∧
    (field 0x10000000#32 defaultLayout.hdr.objPos : BitVec 4) ≠ 0#4 := by decide

/-- Both reads succeed; the first fails; the second fails. -/
theorem test_meets_RefreshCommitsTableAndCountTogether :
    ((fresh [answer [], answer [0x07#8]]).draw.ok = true ∧ (fresh [answer [], answer [0x07#8]]).afterDraw.draw.ok = true) ∧
    (fresh [failure none false]).draw.ok = false ∧
    ((up [answer [], failure none false]).draw.ok = true ∧
      (up [answer [], failure none false]).afterDraw.draw.ok = false) := by decide

theorem test_meets_GetPdoCntReturnsTheStoredCount :
    (up []).block.pdoCount = some 4 ∧ State.reset.block.pdoCount = none := by decide

/-- Positions 0 and 8; 1 and 7 before a refresh; 5 above a count of 4; 4 at the count. -/
theorem test_meets_GetPdoDecodesAValidSlot :
    (0 = 0 ∨ 7 < 0) ∧ (8 = 0 ∨ 7 < 8) ∧ State.reset.block.pdoCount = none ∧
    ((up []).block.pdoCount = some 4 ∧ (4 : Fin 8).val < 5) ∧
    (4 ≤ (4 : Fin 8).val ∧ (up []).block.slot[4]? = some (some 0xC0DC213C#32)) := by decide

theorem test_meets_GetLastRdoReturnsSlotZero :
    (up []).block.slot[0] = some 0x2004B12C#32 ∧ State.reset.block.slot[0] = none := by decide

/-- No count; position 5 above the count; a Fixed request to the PPS slot; a PPS request, with both answers. -/
theorem test_meets_WriteRdoChecksThenSendsTheEncodedRequest :
    (State.reset.params.layout = defaultLayout ∧ (up []).params.layout = defaultLayout) ∧
    State.reset.block.pdoCount = none ∧
    ((up []).block.pdoCount = some 4 ∧ (4 : Fin 8).val < (hdrOf (.pps ⟨plain pos5, 450#12, 40#7⟩)).objPos.bits.toNat) ∧
    ((hdrOf (.pps ppsReq)).objPos.bits.toNat ≤ (4 : Fin 8).val ∧
      (up []).block.slot[(hdrOf (.pps ppsReq)).objPos.bits.toNat]? = some (some 0xC0DC213C#32) ∧
      matchesRdo (decodePdo defaultLayout 0xC0DC213C#32) (.fixed ⟨plain pos4, 100#10, 100#10⟩) = false ∧
      matchesRdo (decodePdo defaultLayout 0xC0DC213C#32) (.pps ppsReq) = true) ∧ BothAnswers := by decide

theorem test_meets_ResetRdoWritesTheZeroSentinel : BothAnswers := by decide

theorem test_meets_OnlyRefreshAndRequestsWriteTheSlotFile :
    ∃ t, exec .readStatus (up [answer [0x05#8]]) = .next t ∧ Instr.readStatus ≠ .refreshPdos ∧
      (∀ r, Instr.readStatus ≠ .writeRdo r) ∧ Instr.readStatus ≠ .resetRdo :=
  ⟨_, rfl, by decide, fun _ h => Instr.noConfusion h, by decide⟩

theorem test_meets_ReadStatusCopiesTheByteIntoTheSnapshot : BothAnswers := by decide

theorem test_meets_GetStatusReturnsTheSnapshot :
    (up []).block.statusSnap = some 0x03#8 ∧ State.reset.block.statusSnap = none := by decide

theorem test_meets_SetMaskWritesTheByteAsGiven : BothAnswers := by decide

theorem test_meets_GetMaskReturnsTheDeviceByte : BothAnswers := by decide

theorem test_meets_ReadVoltageGivesEightyMillivoltsAUnit : BothAnswers := by decide

theorem test_meets_ReadCurrentGivesTwentyFourMilliampsAUnit : BothAnswers := by decide

theorem test_meets_ReadTempGivesTheSignedByte : BothAnswers := by decide

theorem test_meets_LastMeasurementsConvertTheSnapshot :
    ((up []).block.vSnap = some 0x64#8 ∧ State.reset.block.vSnap = none) ∧
    ((up []).block.iSnap = some 0x32#8 ∧ (up []).params.shuntDefault = true) ∧
    (otherShunt.block.iSnap = some 0x32#8 ∧ otherShunt.params.shuntDefault = false) ∧
    State.reset.block.iSnap = none ∧ ((up []).block.tSnap = some 0xF6#8 ∧ State.reset.block.tSnap = none) := by decide

/-- 12799 is the last amount that is written, 12800 the first that is refused. -/
theorem test_meets_SetOcpStoresTheFloorOfFiftieths : 12799 < 12800 ∧ 12799 ≤ 12799 ∧ BothAnswers := by decide

theorem test_meets_GetOcpGivesFiftyMilliampsAUnit : BothAnswers := by decide

theorem test_meets_SetTemperatureThresholdsStoreTheDegrees :
    ((Instr.setOtp 255, 0x24) = (.setOtp 255, 0x24) ∧ (Instr.setDr 256, 0x25) = (.setDr 256, 0x25)) ∧
    255 < 256 ∧ 255 ≤ 255 ∧ BothAnswers := by decide

theorem test_meets_GetTemperatureThresholdsGiveTheDegrees :
    ((Instr.getOtp, 0x24) = (.getOtp, 0x24) ∨ (Instr.getOtp, 0x24) = (.getDr, 0x25)) ∧
    ((Instr.getDr, 0x25) = (.getOtp, 0x24) ∨ (Instr.getDr, 0x25) = (.getDr, 0x25)) ∧ BothAnswers := by decide

/-- A point that does not exist; the first and the last that do; 65536 and 65535. -/
theorem test_meets_SetNtcStoresTheResistanceLittleEndian :
    (30 ≠ 25 ∧ 30 ≠ 50 ∧ 30 ≠ 75 ∧ 30 ≠ 100) ∧
    (25, 0x28) ∈ [(25, 0x28), (50, 0x2A), (75, 0x2C), (100, 0x2E)] ∧
    (100, 0x2E) ∈ [(25, 0x28), (50, 0x2A), (75, 0x2C), (100, 0x2E)] ∧
    65535 < 65536 ∧ 65535 ≤ 65535 ∧ BothAnswers := by decide

theorem test_meets_GetNtcGivesTheResistance :
    (0 ≠ 25 ∧ 0 ≠ 50 ∧ 0 ≠ 75 ∧ 0 ≠ 100) ∧
    (75, 0x2C) ∈ [(25, 0x28), (50, 0x2A), (75, 0x2C), (100, 0x2E)] ∧ BothAnswers := by decide

/-- One run for each clause, with an operation on another register in between, and a value that is no multiple. -/
theorem test_meets_SetThenGetReturnsTheValueTruncatedToItsScale :
    (∃ t u v, exec (.setOcp 12799) (fresh [answer [], answer [], answer []]) = .next t ∧
      t.result = some (.ok .unit) ∧ (∀ i ∈ [Instr.setOtp 1], writesTo i 0x23 = false) ∧
      runOps [.setOtp 1] t = .next u ∧ exec .getOcp u = .next v ∧ v.result = some (.ok (.milliAmp 12750))) ∧
    (∃ t u v, exec (.setOtp 255) (fresh [answer [], answer [], answer []]) = .next t ∧
      t.result = some (.ok .unit) ∧ (∀ i ∈ [Instr.setDr 1], writesTo i 0x24 = false) ∧
      runOps [.setDr 1] t = .next u ∧ exec .getOtp u = .next v ∧ v.result = some (.ok (.degrees 255))) ∧
    (∃ t u v, exec (.setDr 0) (fresh [answer [], answer [], answer []]) = .next t ∧
      t.result = some (.ok .unit) ∧ (∀ i ∈ [Instr.setOtp 1], writesTo i 0x25 = false) ∧
      runOps [.setOtp 1] t = .next u ∧ exec .getDr u = .next v ∧ v.result = some (.ok (.degrees 0))) ∧
    (∃ t u v, exec (.setNtc 100 65535) (fresh [answer [], answer [], answer []]) = .next t ∧
      t.result = some (.ok .unit) ∧
      (∀ i ∈ [Instr.setNtc 75 1], writesTo i 0x2E = false ∧ writesTo i (0x2E + 1) = false) ∧
      runOps [.setNtc 75 1] t = .next u ∧ exec (.getNtc 100) u = .next v ∧ v.result = some (.ok (.ohm 65535))) ∧
    (∃ s t u v, exec .getOcp (fresh [answer [0xFF#8], answer [], answer []]) = .next s ∧
      s.result = some (.ok (.milliAmp 12750)) ∧ exec (.setOcp 12750) s = .next t ∧ t.result = some (.ok .unit) ∧
      runOps [] t = .next u ∧ exec .getOcp u = .next v ∧ v.result = some (.ok (.milliAmp 12750))) :=
  ⟨⟨_, _, _, rfl, rfl, by decide, rfl, rfl, rfl⟩, ⟨_, _, _, rfl, rfl, by decide, rfl, rfl, rfl⟩,
    ⟨_, _, _, rfl, rfl, by decide, rfl, rfl, rfl⟩, ⟨_, _, _, rfl, rfl, by decide, rfl, rfl, rfl⟩,
    ⟨_, _, _, _, rfl, rfl, rfl, rfl, rfl, rfl, rfl⟩⟩

/-- All four writes succeed, or the first, second, third or fourth fails. -/
theorem test_meets_InitWritesTheDefaultsUntilTheFirstFailure :
    let ok := answer []
    let no := failure none false
    ((fresh [ok, ok, ok, ok]).draw.ok = true ∧ (fresh [ok, ok, ok, ok]).afterDraw.draw.ok = true ∧
      (fresh [ok, ok, ok, ok]).afterDraw.afterDraw.draw.ok = true ∧
      (fresh [ok, ok, ok, ok]).afterDraw.afterDraw.afterDraw.draw.ok = true) ∧
    (fresh [no]).draw.ok = false ∧ (fresh [ok, no]).afterDraw.draw.ok = false ∧
    (fresh [ok, ok, no]).afterDraw.afterDraw.draw.ok = false ∧
    (fresh [ok, ok, ok, no]).afterDraw.afterDraw.afterDraw.draw.ok = false := by decide

theorem test_meets_InitLeavesTheDefaultConfiguration :
    ∃ t, (fresh [answer [], answer [], answer [], answer []]).params = defaultParams ∧
      exec .init (fresh [answer [], answer [], answer [], answer []]) = .next t ∧ t.result = some (.ok .unit) :=
  ⟨_, rfl, rfl, rfl⟩

theorem test_meets_EveryStepKeepsTheInvariant :
    ∃ t, (calling ⟨.setNtc, [25, 10000]⟩ [answer []]).Inv ∧
      step (calling ⟨.setNtc, [25, 10000]⟩ [answer []]) = .next t ∧ t.device = [(0x28, 0x10#8), (0x29, 0x27#8)] :=
  ⟨_, ⟨by decide, by decide, by decide⟩, rfl, rfl⟩

theorem test_meets_OnlyUnwrittenCellsStopAnOperation :
    exec .getLastTemp State.reset = .fault (.unwritten .tSnap) := rfl

theorem test_meets_BroughtUpBlockNeverStops : (up []).block.filled = true := by decide

theorem test_meets_NothingFollowsAFailedTransaction :
    ∃ t, exec .refreshPdos (up [answer [], failure none false]) = .next t ∧
      t.result = some (.err .transportFailure) ∧ Instr.refreshPdos ≠ .isPresent :=
  ⟨_, rfl, rfl, by decide⟩

theorem test_meets_OnlyMappedTransactionsAreIssued :
    (∃ t, exec (.getNtc 100) (up [answer []]) = .next t ∧ t.bus.length = 1) ∧
    (∃ t, exec .getStatus (up []) = .next t) ∧ usesTransport .getStatus = false :=
  ⟨⟨_, rfl, rfl⟩, ⟨_, rfl⟩, rfl⟩

theorem test_meets_PureAndCachedOperationsChangeNoCell :
    ∃ t, usesTransport (.getPdo 4) = false ∧ exec (.getPdo 4) (up []) = .next t := ⟨_, rfl, rfl⟩

theorem test_meets_EachSnapshotChangesOnlyInItsOwnRead :
    ∃ t, exec .readVoltage (up [answer [0x01#8]]) = .next t ∧ Instr.readVoltage ≠ .readStatus ∧
      Instr.readVoltage ≠ .readCurrent ∧ Instr.readVoltage ≠ .readTemp ∧ Instr.readTemp ≠ .readVoltage :=
  ⟨_, rfl, by decide, by decide, by decide, by decide⟩

theorem test_meets_RefusedCallsChangeNothing :
    ∃ t, exec (.setOtp 300) (up []) = .next t ∧ t.result = some (.err (.argumentOutOfRange 300)) ∧
      Err.argumentOutOfRange 300 ≠ .transportFailure :=
  ⟨_, rfl, rfl, by decide⟩

/-- One run for each code of R421. -/
theorem test_meets_EachErrorIsRaisedOnlyByItsOperations :
    (∃ t, exec .init (fresh [failure none false]) = .next t ∧ t.result = some (.err .transportFailure) ∧
      errorCode .transportFailure = 1) ∧
    (∃ t, exec (.getPdo 0) (up []) = .next t ∧ t.result = some (.err (.invalidPosition 0)) ∧
      errorCode (.invalidPosition 0) = 2) ∧
    (∃ t, exec (.writeRdo (.fixed ⟨plain pos4, 1#10, 1#10⟩)) (up []) = .next t ∧
      t.result = some (.err (.variantMismatch 4)) ∧ errorCode (.variantMismatch 4) = 3) ∧
    (∃ t, exec (.getNtc 30) (up []) = .next t ∧ t.result = some (.err (.argumentOutOfRange 30)) ∧
      errorCode (.argumentOutOfRange 30) = 4) :=
  ⟨⟨_, rfl, rfl, rfl⟩, ⟨_, rfl, rfl, rfl⟩, ⟨_, rfl, rfl, rfl⟩, ⟨_, rfl, rfl, rfl⟩⟩

/-- X14: with the default MASK_INIT only `ready` is enabled. -/
theorem test_mask_init : maskFlags defaultParams.maskInit = ⟨0#1, 0#1, 0#1, 0#1, 0#1, 0#1, 0#1, 1#1⟩ := by decide

theorem test_meets_DeviceBytesOutsideTheRegisterAreKept :
    ∃ t, exec (.setNtc 25 1) (up [answer []]) = .next t ∧ writesTo (.setNtc 25 1) 0x27 = false ∧
      writesTo (.setNtc 25 1) 0x2A = false :=
  ⟨_, rfl, by decide, by decide⟩

theorem test_meets_OperationsKeepProgramAndParameters : ∃ t, exec .init (fresh [failure none false]) = .next t := ⟨_, rfl⟩

/-- Two states with one block, one of them with a device register known and another answer to come. -/
theorem test_meets_CachedResultsDependOnTheBlockAlone :
    ∃ s', usesTransport .getLastCurrent = false ∧ Instr.getLastCurrent ≠ .pollInt ∧
      (up []).block = ({ up [answer [0x09#8]] with device := [(0x1E, 0x01#8)] } : State).block ∧
      (up []).params.layout = ({ up [answer [0x09#8]] with device := [(0x1E, 0x01#8)] } : State).params.layout ∧
      (up []).params.shuntDefault = true ∧ exec .getLastCurrent (up []) = .next s' :=
  ⟨_, rfl, by decide, rfl, rfl, rfl, rfl⟩

end Sys2Proof.Tests
end

section
/-! PROOFS of 10_state.md: what one operation may leave behind, said once (`Effect`, `exec_effect`), and from it the
frame of the block, of the caller's program and of the parameters, and the machine's invariant. -/

namespace Sys2Proof.Machine

/-! ## What an operation may change -/

/-- The updates of the block's cells, each with the operations that make it (10_state.md R36, R39, R40). -/
inductive BlockChange : Instr → Block → Block → Prop where
  | kept (i : Instr) (b : Block) : BlockChange i b b
  | table (b : Block) (t : Vector Byte 28) (n : Fin 8) : BlockChange .refreshPdos b (b.setTable t n)
  | request (r : Rdo) (b : Block) (w : Word) : BlockChange (.writeRdo r) b (b.setLastRdo (some w))
  | resetRequest (b : Block) (w : Word) : BlockChange .resetRdo b (b.setLastRdo (some w))
  | status (b : Block) (v : Byte) : BlockChange .readStatus b (b.setStatus (some v))
  | voltage (b : Block) (v : Byte) : BlockChange .readVoltage b (b.setVoltage (some v))
  | current (b : Block) (v : Byte) : BlockChange .readCurrent b (b.setCurrent (some v))
  | temp (b : Block) (v : Byte) : BlockChange .readTemp b (b.setTemp (some v))

/-- The operation writes the register of `n` bytes at `a`, one of the address map (20_memory.md R77). -/
def WritesRegister (i : Instr) (a : RegAddr) (n : Nat) : Prop :=
  (a, n) ∈ mappedWrites ∧ ∀ j < n, writesTo i (a.toNat + j) = true

/-- One write transaction of the operation: the register is known after a success and unknown after a failure
(20_memory.md R80, R83). -/
inductive RegisterWrite (i : Instr) (m : Memory) : Memory → Prop where
  | succeeded (a : RegAddr) (bs : List Byte) (h : WritesRegister i a bs.length) :
      RegisterWrite i m (Memory.writeBytes m a.toNat bs)
  | failed (a : RegAddr) (n : Nat) (h : WritesRegister i a n) :
      RegisterWrite i m (Memory.forgetBytes m a.toNat n)

/-- What the operation may leave behind: the caller's program, its index and the parameters are kept, the block takes at
most one update, the device any number of register writes. -/
structure Effect (i : Instr) (s t : State) : Prop where
  program : t.program = s.program
  index : t.index = s.index
  params : t.params = s.params
  block : BlockChange i s.block t.block
  device : Relation.ReflTransGen (RegisterWrite i) s.device t.device

/-! ## The effect of each shared shape -/

section Shapes

variable {i : Instr} {s t u : State}

theorem Effect.refl (i : Instr) (s : State) : Effect i s s := ⟨rfl, rfl, rfl, .kept i _, .refl⟩

theorem Effect.setBlock {b : Block} (hb : BlockChange i s.block b) : Effect i s (s.setBlock b) :=
  ⟨rfl, rfl, rfl, hb, .refl⟩

/-- A draw touches nothing that an effect speaks of; nor does a transaction on the record (`Effect.of_log`). -/
theorem Effect.of_afterDraw (h : Effect i s.afterDraw t) : Effect i s t :=
  ⟨h.program, h.index, h.params, h.block, h.device⟩

theorem Effect.of_log {x : Transaction} (h : Effect i (s.log x) t) : Effect i s t :=
  ⟨h.program, h.index, h.params, h.block, h.device⟩

theorem Effect.of_setDevice {m : Memory} (hm : RegisterWrite i s.device m) (h : Effect i (s.setDevice m) t) :
    Effect i s t :=
  ⟨h.program, h.index, h.params, h.block, .head hm h.device⟩

theorem Effect.of_ret {v : Value} (hu : Effect i s u) (h : u.ret v = .next t) : Effect i s t := by
  rw [State.ret_eq] at h
  cases h
  exact ⟨hu.program, hu.index, hu.params, hu.block, hu.device⟩

theorem Effect.of_raise {e : Err} (hu : Effect i s u) (h : u.raise e = .next t) : Effect i s t := by
  rw [State.raise_eq] at h
  cases h
  exact ⟨hu.program, hu.index, hu.params, hu.block, hu.device⟩

theorem Effect.of_needCell_ret {α : Type} {c : BlockCell} {x : Option α} {f : α → Value}
    (hu : Effect i s u) (h : needCell c x (fun v => u.ret (f v)) = .next t) : Effect i s t := by
  obtain ⟨v, -, hv⟩ := needCell_next h
  exact hu.of_ret hv

/-- A read, then whatever its continuation does from the state after the transaction. -/
theorem Effect.of_readThen {a : RegAddr} {n : Nat} {hn : n ≤ 28}
    {k : Vector Byte n → State → Host.Outcome State Fault Refusal} (h : readThen a n hn k s = .next t)
    (hk : ∀ b u, k b u = .next t → Effect i u t) : Effect i s t := by
  cases hok : s.draw.ok with
  | true =>
    rw [readThen_ok a n hn k s hok] at h
    exact (hk _ _ h).of_log.of_afterDraw
  | false =>
    rw [readThen_fail a n hn k s hok] at h
    exact ((Effect.refl i _).of_raise h).of_log.of_afterDraw

theorem Effect.of_readThen_ret {a : RegAddr} {n : Nat} {hn : n ≤ 28} {f : Vector Byte n → Value}
    (h : readThen a n hn (fun b u => u.ret (f b)) s = .next t) : Effect i s t :=
  Effect.of_readThen h fun _ u hu => (Effect.refl i u).of_ret hu

/-- A failed snapshot read sets its own cell or keeps it (43_status_interrupt.md R320). -/
theorem BlockChange.of_snapAfterFail {get : Block → Option Byte} {set : Block → Option Byte → Block}
    (hset : ∀ b v, BlockChange i b (set b (some v))) (hget : ∀ b, set b (get b) = b) (d : Draw) (b : Block) :
    BlockChange i b (set b (snapAfterFail d (get b))) := by
  rcases snapAfterFail_cases d (get b) with hv | ⟨v, hv⟩
  · rw [hv, hget]
    exact .kept i b
  · rw [hv]
    exact hset b v

theorem Effect.of_snapshotRead {a : RegAddr} {get : Block → Option Byte} {set : Block → Option Byte → Block}
    {k : Byte → Value} (hset : ∀ b v, BlockChange i b (set b (some v))) (hget : ∀ b, set b (get b) = b)
    (h : snapshotRead a get set k s = .next t) : Effect i s t := by
  cases hok : s.draw.ok with
  | true =>
    rw [snapshotRead_ok a get set k s hok] at h
    exact ((Effect.setBlock (hset _ _)).of_ret h).of_log.of_afterDraw
  | false =>
    rw [snapshotRead_fail a get set k s hok] at h
    exact ((Effect.setBlock (.of_snapAfterFail hset hget _ _)).of_raise h).of_log.of_afterDraw

theorem Effect.of_configWrite {a : RegAddr} {bs : List Byte} (hw : WritesRegister i a bs.length)
    (h : configWrite a bs s = .next t) : Effect i s t := by
  cases hok : s.draw.ok with
  | true =>
    rw [configWrite_ok a bs s hok] at h
    exact (((Effect.refl i _).of_ret h).of_setDevice (.succeeded a bs hw)).of_log.of_afterDraw
  | false =>
    rw [configWrite_fail a bs s hok] at h
    exact (((Effect.refl i _).of_raise h).of_setDevice (.failed a _ hw)).of_log.of_afterDraw

/-- Configuration writes in order, up to the first failure (45_device_control.md R401). -/
theorem Effect.of_configWrites {ws : List (RegAddr × Byte)} (hw : ∀ x ∈ ws, WritesRegister i x.1 1)
    (h : configWrites ws s = .next t) : Effect i s t := by
  induction ws generalizing s with
  | nil =>
    rw [configWrites_nil] at h
    exact (Effect.refl i s).of_ret h
  | cons x rest ih =>
    obtain ⟨a, b⟩ := x
    have ha : WritesRegister i a 1 := hw (a, b) List.mem_cons_self
    cases hok : s.draw.ok with
    | true =>
      rw [configWrites_cons_ok a b rest s hok] at h
      have hrest := ih (fun x hx => hw x (List.mem_cons_of_mem _ hx)) h
      exact (hrest.of_setDevice (.succeeded a [b] ha)).of_log.of_afterDraw
    | false =>
      rw [configWrites_cons_fail a b rest s hok] at h
      exact (((Effect.refl i _).of_raise h).of_setDevice (.failed a 1 ha)).of_log.of_afterDraw

/-- Slot 0 set to the word it holds. -/
theorem Block.setLastRdo_self (b : Block) : b.setLastRdo b.slot[0] = b := by
  simp [Block.setLastRdo]

/-- A failed request write sets slot 0 to the new word or keeps it (42_pdo_rdo_registers.md R285, R286). -/
theorem BlockChange.of_slotAfterFail {w : Word} (hset : ∀ b, BlockChange i b (b.setLastRdo (some w))) (d : Draw)
    (b : Block) : BlockChange i b (b.setLastRdo (slotAfterFail d b.slot[0] w)) := by
  rcases slotAfterFail_cases d b.slot[0] w with hv | hv
  · rw [hv, Block.setLastRdo_self]
    exact .kept i b
  · rw [hv]
    exact hset b

theorem Effect.of_requestWrite {w : Word} (hset : ∀ b, BlockChange i b (b.setLastRdo (some w)))
    (hw : WritesRegister i 0x30#8 4) (h : requestWrite w s = .next t) : Effect i s t := by
  cases hok : s.draw.ok with
  | true =>
    rw [requestWrite_ok w s hok] at h
    exact (((Effect.setBlock (hset _)).of_ret h).of_setDevice
      (.succeeded 0x30#8 (bytesLe32 w) hw)).of_log.of_afterDraw
  | false =>
    rw [requestWrite_fail w s hok] at h
    exact (((Effect.setBlock (.of_slotAfterFail hset _ _)).of_raise h).of_setDevice
      (.failed 0x30#8 4 hw)).of_log.of_afterDraw

end Shapes

/-! ## The effect of each operation with a shape of its own -/

section Operations

variable {i : Instr} {s t : State}

theorem Effect.of_returnRdo {k : RdoKind} {w : Word} (h : returnRdo k w s = .next t) : Effect i s t := by
  unfold returnRdo at h
  split at h
  · exact (Effect.refl i s).of_ret h
  · exact (Effect.refl i s).of_raise h

theorem Effect.of_execRefreshPdos (h : execRefreshPdos s = .next t) : Effect .refreshPdos s t := by
  refine Effect.of_readThen h fun table s1 h1 => ?_
  refine Effect.of_readThen h1 fun count s2 h2 => ?_
  exact (Effect.setBlock (.table _ table _)).of_ret h2

theorem Effect.of_execGetPdo {p : Nat} (h : execGetPdo p s = .next t) : Effect i s t := by
  unfold execGetPdo at h
  split at h
  · exact (Effect.refl i s).of_raise h
  · obtain ⟨n, -, h⟩ := needCell_next h
    split at h
    · exact (Effect.refl i s).of_raise h
    · exact (Effect.refl i s).of_needCell_ret h

theorem Effect.of_execReadStatus (h : execReadStatus s = .next t) : Effect .readStatus s t :=
  Effect.of_snapshotRead .status (fun _ => rfl) h

theorem Effect.of_execReadVoltage (h : execReadVoltage s = .next t) : Effect .readVoltage s t :=
  Effect.of_snapshotRead .voltage (fun _ => rfl) h

theorem Effect.of_execReadCurrent (h : execReadCurrent s = .next t) : Effect .readCurrent s t :=
  Effect.of_snapshotRead .current (fun _ => rfl) h

theorem Effect.of_execReadTemp (h : execReadTemp s = .next t) : Effect .readTemp s t :=
  Effect.of_snapshotRead .temp (fun _ => rfl) h

theorem Effect.of_execGetLastCurrent (h : execGetLastCurrent s = .next t) : Effect i s t := by
  have hu : Effect i s (if s.params.shuntDefault then s else s.afterDraw) := by
    split
    · exact .refl i s
    · exact (Effect.refl i _).of_afterDraw
  exact hu.of_needCell_ret h

theorem WritesRegister.writeRdo (r : Rdo) : WritesRegister (.writeRdo r) 0x30#8 4 :=
  ⟨by decide, by simp only [writesTo]; decide⟩

theorem WritesRegister.resetRdo : WritesRegister .resetRdo 0x30#8 4 := ⟨by decide, by decide⟩

theorem Effect.of_execWriteRdo {r : Rdo} (h : execWriteRdo r s = .next t) : Effect (.writeRdo r) s t := by
  unfold execWriteRdo at h
  obtain ⟨n, -, h⟩ := needCell_next h
  dsimp only at h
  split at h
  · exact (Effect.refl _ s).of_raise h
  · obtain ⟨w, -, h⟩ := needCell_next h
    split at h
    · exact Effect.of_requestWrite (fun b => .request r b _) (.writeRdo r) h
    · exact (Effect.refl _ s).of_raise h

theorem WritesRegister.of_byte {a : RegAddr} (ha : (a, 1) ∈ mappedWrites) (hw : writesTo i a.toNat = true) :
    WritesRegister i a 1 := by
  refine ⟨ha, fun j hj => ?_⟩
  obtain rfl : j = 0 := by omega
  exact hw

theorem Effect.of_execSetOcp {mA : Nat} (h : execSetOcp mA s = .next t) : Effect (.setOcp mA) s t := by
  unfold execSetOcp at h
  split at h
  · exact (Effect.refl _ s).of_raise h
  · exact Effect.of_configWrite (.of_byte (by decide) rfl) h

theorem Effect.of_setDegrees {a : RegAddr} {c : Nat} (hw : WritesRegister i a 1) (h : setDegrees a c s = .next t) :
    Effect i s t := by
  unfold setDegrees at h
  split at h
  · exact (Effect.refl _ s).of_raise h
  · exact Effect.of_configWrite hw h

/-- The register of an NTC point has two bytes of the address map (44_measure_threshold.md R362). -/
theorem WritesRegister.setNtc {k ohm : Nat} {a : RegAddr} (ha : ntcAddr k = some a) :
    WritesRegister (.setNtc k ohm) a 2 := by
  constructor
  · unfold ntcAddr at ha
    split_ifs at ha <;> cases ha <;> decide
  · intro j hj
    simp [writesTo, ha, hj]

theorem Effect.of_execSetNtc {k ohm : Nat} (h : execSetNtc k ohm s = .next t) : Effect (.setNtc k ohm) s t := by
  unfold execSetNtc at h
  split at h
  · exact (Effect.refl _ s).of_raise h
  · rename_i a ha
    split at h
    · exact (Effect.refl _ s).of_raise h
    · exact Effect.of_configWrite (.setNtc ha) h

theorem Effect.of_execGetNtc {k : Nat} (h : execGetNtc k s = .next t) : Effect i s t := by
  unfold execGetNtc at h
  split at h
  · exact (Effect.refl _ s).of_raise h
  · exact Effect.of_readThen_ret h

theorem Effect.of_execInit (h : execInit s = .next t) : Effect .init s t := by
  refine Effect.of_configWrites (fun x hx => ?_) h
  have hreg : ∀ a ∈ [0x1E#8, 0x23#8, 0x24#8, 0x25#8], (a, 1) ∈ mappedWrites ∧ writesTo .init a.toNat = true := by
    decide
  obtain ⟨ha, hw⟩ := hreg x.1 (List.mem_map_of_mem (f := Prod.fst) hx)
  exact .of_byte ha hw

end Operations

/-- Every operation that answers has no effect but these (10_state.md R36, R39, R40, R55; 20_memory.md R83). -/
theorem exec_effect {i : Instr} {s t : State} (h : exec i s = .next t) : Effect i s t := by
  cases i with
  | decodePdoFixed w | decodePdoBattery w | decodePdoVariable w | decodePdoPps w | decodePdoEprAvs w
  | decodePdoOpaque w | encodeRdoFixed r | encodeRdoBattery r | encodeRdoPps r | encodeRdoAvs r | checkRdo p r
  | decodeStatus b => exact (Effect.refl _ s).of_ret h
  | decodeRdoFixed w | decodeRdoBattery w | decodeRdoPps w | decodeRdoAvs w => exact Effect.of_returnRdo h
  | refreshPdos => exact Effect.of_execRefreshPdos h
  | writeRdo r => exact Effect.of_execWriteRdo h
  | resetRdo => exact Effect.of_requestWrite (fun b => .resetRequest b _) .resetRdo h
  | readStatus => exact Effect.of_execReadStatus h
  | readVoltage => exact Effect.of_execReadVoltage h
  | readCurrent => exact Effect.of_execReadCurrent h
  | readTemp => exact Effect.of_execReadTemp h
  | setMask m => exact Effect.of_configWrite (.of_byte (by decide) rfl) h
  | getMask | getOcp | getOtp | getDr => exact Effect.of_readThen_ret h
  | setOcp mA => exact Effect.of_execSetOcp h
  | setOtp c | setDr c => exact Effect.of_setDegrees (.of_byte (by decide) rfl) h
  | setNtc k ohm => exact Effect.of_execSetNtc h
  | getNtc k => exact Effect.of_execGetNtc h
  | isPresent => exact ((Effect.refl _ _).of_ret h).of_log.of_afterDraw
  | init => exact Effect.of_execInit h
  | getPdo p => exact Effect.of_execGetPdo h
  | getPdoCnt | getLastRdo | getStatus | getLastVoltage | getLastTemp => exact (Effect.refl _ s).of_needCell_ret h
  | getLastCurrent => exact Effect.of_execGetLastCurrent h
  | pollInt => exact ((Effect.refl _ _).of_ret h).of_afterDraw

end Sys2Proof.Machine
end

section
/-! PROOFS of 10_state.md, continued: the device's registers are known whole or not at all, and the slot file is paired;
then the statements, from `exec_effect` and from what one step can do. -/

namespace Sys2Proof.Machine

/-! ## Registers known whole or not at all (20_memory.md R74) -/

@[simp] theorem Memory.known_writeBytes (m : Memory) (a : Nat) (bs : List Byte) (b : Nat) :
    Memory.known (Memory.writeBytes m a bs) b = if a ≤ b ∧ b < a + bs.length then true else Memory.known m b := by
  unfold Memory.known
  rw [Memory.read_writeBytes]
  split_ifs with hb
  · rw [List.getElem?_eq_getElem (by omega)]
    rfl
  · rfl

@[simp] theorem Memory.known_forgetBytes (m : Memory) (a n b : Nat) :
    Memory.known (Memory.forgetBytes m a n) b = if a ≤ b ∧ b < a + n then false else Memory.known m b := by
  unfold Memory.known
  rw [Memory.read_forgetBytes]
  split_ifs <;> rfl

/-- Whole registers: each byte of a register the block writes is known exactly where its first byte is. -/
theorem Memory.whole_iff (m : Memory) : Memory.whole m = true ↔
    ∀ r ∈ mappedWrites, ∀ j < r.2, Memory.known m r.1.toNat = Memory.known m (r.1.toNat + j) := by
  simp only [Memory.whole, mappedWrites, List.forall_mem_cons, Nat.forall_lt_succ_right, Bool.and_eq_true, beq_iff_eq]
  simp [and_assoc]

/-- The registers that the block writes do not overlap (20_memory.md R77). -/
theorem mappedWrites_apart : ∀ r ∈ mappedWrites, ∀ q ∈ mappedWrites,
    r = q ∨ r.1.toNat + r.2 ≤ q.1.toNat ∨ q.1.toNat + q.2 ≤ r.1.toNat := by decide

/-- The bytes of a register of the map are bytes that the block writes (20_memory.md R77). -/
theorem writtenAddr_of_mappedWrites : ∀ r ∈ mappedWrites, ∀ j < r.2, writtenAddr (r.1.toNat + j) = true := by decide

/-- Making one register of the map known, or unknown, from its first byte to its last keeps every register whole. -/
theorem Memory.whole_of_known_update {m m' : Memory} {a : RegAddr} {n : Nat} {v : Bool} (ha : (a, n) ∈ mappedWrites)
    (hm' : ∀ b, Memory.known m' b = if a.toNat ≤ b ∧ b < a.toNat + n then v else Memory.known m b)
    (h : Memory.whole m = true) : Memory.whole m' = true := by
  rw [Memory.whole_iff] at h ⊢
  intro r hr j hj
  rw [hm', hm']
  rcases mappedWrites_apart r hr (a, n) ha with rfl | happart
  · dsimp only at hj ⊢
    rw [if_pos (by omega), if_pos (by omega)]
  · dsimp only at happart
    rw [if_neg (by omega), if_neg (by omega)]
    exact h r hr j hj

theorem RegisterWrite.whole {i : Instr} {m m' : Memory} (hw : RegisterWrite i m m') (h : Memory.whole m = true) :
    Memory.whole m' = true := by
  cases hw with
  | succeeded a bs hreg => exact Memory.whole_of_known_update hreg.1 (Memory.known_writeBytes m _ bs) h
  | failed a n hreg => exact Memory.whole_of_known_update hreg.1 (Memory.known_forgetBytes m _ n) h

theorem RegisterWrite.wf {i : Instr} {m m' : Memory} (hw : RegisterWrite i m m') (h : Memory.wf m = true) :
    Memory.wf m' = true := by
  cases hw with
  | succeeded a bs hreg => exact Memory.wf_writeBytes bs _ h (writtenAddr_of_mappedWrites _ hreg.1)
  | failed a n hreg => exact Memory.wf_forgetBytes n _ h

/-- Any number of register writes keeps the device memory canonical and whole. -/
theorem registerWrites_keep_wf_whole {i : Instr} {m m' : Memory}
    (hw : Relation.ReflTransGen (RegisterWrite i) m m') (h : Memory.wf m = true ∧ Memory.whole m = true) :
    Memory.wf m' = true ∧ Memory.whole m' = true := by
  induction hw with
  | refl => exact h
  | tail _ hlast ih => exact ⟨hlast.wf ih.1, hlast.whole ih.2⟩

/-! ## The slot file (10_state.md R36) -/

/-- Only REFRESH_PDOS writes slots 1..7 and the count. -/
theorem BlockChange.keeps_table {i : Instr} {b b' : Block} (h : BlockChange i b b') (hi : i ≠ .refreshPdos) :
    b'.pdoCount = b.pdoCount ∧ ∀ k : Fin 8, 1 ≤ k.val → b'.slot[k.val] = b.slot[k.val] := by
  cases h with
  | table => exact absurd rfl hi
  | kept | status | voltage | current | temp => exact ⟨rfl, fun _ _ => rfl⟩
  | request r _ w | resetRequest _ w =>
    refine ⟨rfl, fun k hk => ?_⟩
    rw [Block.setLastRdo_slot]
    exact Vector.getElem_set_ne _ _ (by omega)

/-- Only the two requests write slot 0. -/
theorem BlockChange.keeps_slot_zero {i : Instr} {b b' : Block} (h : BlockChange i b b') (hw : ∀ r, i ≠ .writeRdo r)
    (hr : i ≠ .resetRdo) : b'.slot[0] = b.slot[0] := by
  cases h with
  | request r => exact absurd rfl (hw r)
  | resetRequest => exact absurd rfl hr
  | kept | table | status | voltage | current | temp => rfl

theorem BlockChange.keeps_statusSnap {i : Instr} {b b' : Block} (h : BlockChange i b b') (hi : i ≠ .readStatus) :
    b'.statusSnap = b.statusSnap := by
  cases h with
  | status => exact absurd rfl hi
  | kept | table | request | resetRequest | voltage | current | temp => rfl

theorem BlockChange.keeps_vSnap {i : Instr} {b b' : Block} (h : BlockChange i b b') (hi : i ≠ .readVoltage) :
    b'.vSnap = b.vSnap := by
  cases h with
  | voltage => exact absurd rfl hi
  | kept | table | request | resetRequest | status | current | temp => rfl

theorem BlockChange.keeps_iSnap {i : Instr} {b b' : Block} (h : BlockChange i b b') (hi : i ≠ .readCurrent) :
    b'.iSnap = b.iSnap := by
  cases h with
  | current => exact absurd rfl hi
  | kept | table | request | resetRequest | status | voltage | temp => rfl

theorem BlockChange.keeps_tSnap {i : Instr} {b b' : Block} (h : BlockChange i b b') (hi : i ≠ .readTemp) :
    b'.tSnap = b.tSnap := by
  cases h with
  | temp => exact absurd rfl hi
  | kept | table | request | resetRequest | status | voltage | current => rfl

/-- Slots 1..7 hold values exactly where the count does. -/
theorem Block.paired_iff (b : Block) : b.paired = true ↔
    ∀ k : Fin 8, 1 ≤ k.val → b.slot[k.val].isSome = b.pdoCount.isSome := by
  simp [Block.paired, Fin.forall_fin_succ, and_assoc]

/-- A refresh commits slots 1..7 and the count together; every other operation keeps them all. -/
theorem BlockChange.paired {i : Instr} {b b' : Block} (h : BlockChange i b b') (hb : b.paired = true) :
    b'.paired = true := by
  by_cases hi : i = .refreshPdos
  · subst hi
    cases h with
    | kept => exact hb
    | table => rfl
  · obtain ⟨hcount, hslot⟩ := h.keeps_table hi
    rw [Block.paired_iff] at hb ⊢
    intro k hk
    rw [hslot k hk, hcount]
    exact hb k hk

/-! ## One step -/

/-- A step that goes on has waited, or has run the operation of the call at the index and moved past it. -/
theorem step_next {s t : State} (h : step s = .next t) :
    (s.fetch = none ∧ t = s) ∨
      ∃ c i u, s.fetch = some c ∧ decode s.params.layout c = .ok i ∧ exec i s = .next u ∧ t = u.advance := by
  unfold step at h
  split at h
  · next hfetch =>
    cases h
    exact .inl ⟨hfetch, rfl⟩
  · next c hfetch =>
    split at h
    · cases h
    · next i hdecode =>
      split at h
      · next u hexec =>
        cases h
        exact .inr ⟨c, i, u, hfetch, hdecode, hexec, rfl⟩
      · cases h
      · cases h

/-- Every operation that answers keeps the machine's invariant. -/
theorem Effect.inv {i : Instr} {s t : State} (h : Effect i s t) (hs : s.Inv) : t.Inv := by
  obtain ⟨hpaired, hdevice⟩ := hs
  exact ⟨h.block.paired hpaired, registerWrites_keep_wf_whole h.device hdevice⟩

/-! ## The statements -/

/-- Settles O48, from `exec_effect`: one update of the block keeps the pairing, register writes keep the memory. -/
theorem everyStepKeepsTheInvariant : Obligations.EveryStepKeepsTheInvariant := by
  intro s t hs h
  rcases step_next h with ⟨-, rfl⟩ | ⟨c, i, u, -, -, hexec, rfl⟩
  · exact hs
  · exact (exec_effect hexec).inv hs

/-- Settles O5: a call is left, so the step has run an operation, and an operation keeps what the caller owns. -/
theorem indexAdvancesByOneWhateverTheResult : Obligations.IndexAdvancesByOneWhateverTheResult := by
  intro s t hleft h
  rcases step_next h with ⟨hwait, -⟩ | ⟨c, i, u, -, -, hexec, rfl⟩
  · rw [State.fetch, List.getElem?_eq_none_iff] at hwait
    omega
  · have hu := exec_effect hexec
    exact ⟨congrArg (· + 1) hu.index, hu.program, hu.params⟩

/-- Settles O25, by what a change of the block keeps. -/
theorem onlyRefreshAndRequestsWriteTheSlotFile : Obligations.OnlyRefreshAndRequestsWriteTheSlotFile := by
  intro i s t h
  have hb := (exec_effect h).block
  exact ⟨hb.keeps_table, hb.keeps_slot_zero⟩

/-- Settles O54, by what a change of the block keeps. -/
theorem eachSnapshotChangesOnlyInItsOwnRead : Obligations.EachSnapshotChangesOnlyInItsOwnRead := by
  intro i s t h
  have hb := (exec_effect h).block
  exact ⟨hb.keeps_statusSnap, hb.keeps_vSnap, hb.keeps_iSnap, hb.keeps_tSnap⟩

/-- Settles O58, from `exec_effect`. -/
theorem operationsKeepProgramAndParameters : Obligations.OperationsKeepProgramAndParameters := by
  intro i s t h
  have ht := exec_effect h
  exact ⟨ht.program, ht.index, ht.params⟩

/-- Settles O4: the two look-ups of a step are the hypotheses, and `State.advance` is the index plus one. -/
theorem stepRunsTheDecodedOperation : Obligations.StepRunsTheDecodedOperation := by
  intro s c i hcall hdecode
  have hfetch : s.fetch = some c := hcall
  simp only [step, hfetch, hdecode]
  cases exec i s <;> rfl

/-- Settles O46: the cells one by one, and the device memory lists nothing. -/
theorem resetLeavesEveryCellUnwritten : Obligations.ResetLeavesEveryCellUnwritten := by
  refine ⟨fun c => ?_, Memory.read_nil⟩
  cases c with
  | slot i => fin_cases i <;> rfl
  | pdoCount | statusSnap | vSnap | iSnap | tSnap => rfl

/-- Settles O47: no slot and no count holds a value, no device byte is known. -/
theorem resetMeetsTheInvariant : Obligations.ResetMeetsTheInvariant := by
  have hpaired : State.reset.block.paired = true := by decide
  have hwhole : Memory.whole State.reset.device = true := by decide
  exact ⟨hpaired, Memory.wf_reset, hwhole⟩

end Sys2Proof.Machine
end

section
/-! PROOFS of 20_memory.md: an operation without the transport only answers (`exec_answered`); the transactions of any
operation are a transcript (`exec_transcript`); a register write reaches the operation's own bytes; a cached result is
read from the block. -/

namespace Sys2Proof.Machine

/-! ## Operations that only answer (20_memory.md R89, 40_pdo_decoder.md R208) -/

/-- No transaction and no cell written; whatever the answer is, it is no failure of the transport. -/
structure Answered (s t : State) : Prop where
  block : t.block = s.block
  device : t.device = s.device
  bus : t.bus = s.bus
  result : t.result ≠ some (.err .transportFailure)

section Answers

variable {s t : State}

theorem Answered.of_ret {v : Value} (h : s.ret v = .next t) : Answered s t := by
  rw [State.ret_eq] at h
  cases h
  exact ⟨rfl, rfl, rfl, by simp⟩

theorem Answered.of_raise {e : Err} (he : e ≠ .transportFailure) (h : s.raise e = .next t) : Answered s t := by
  rw [State.raise_eq] at h
  cases h
  exact ⟨rfl, rfl, rfl, by simp [he]⟩

theorem Answered.of_afterDraw (h : Answered s.afterDraw t) : Answered s t :=
  ⟨h.block, h.device, h.bus, h.result⟩

theorem Answered.of_needCell_ret {α : Type} {c : BlockCell} {x : Option α} {f : α → Value}
    (h : needCell c x (fun v => s.ret (f v)) = .next t) : Answered s t := by
  obtain ⟨v, -, hv⟩ := needCell_next h
  exact .of_ret hv

theorem Answered.of_returnRdo {k : RdoKind} {w : Word} (h : returnRdo k w s = .next t) : Answered s t := by
  unfold returnRdo at h
  split at h
  · exact .of_ret h
  · exact .of_raise (by decide) h

theorem Answered.of_execGetPdo {p : Nat} (h : execGetPdo p s = .next t) : Answered s t := by
  unfold execGetPdo at h
  split at h
  · exact .of_raise (by simp) h
  · obtain ⟨n, -, h⟩ := needCell_next h
    split at h
    · exact .of_raise (by simp) h
    · exact .of_needCell_ret h

/-- With another shunt the free amount is drawn, which touches nothing that an answer speaks of (log 21). -/
theorem Answered.of_execGetLastCurrent (h : execGetLastCurrent s = .next t) : Answered s t := by
  obtain ⟨b, -, h⟩ := needCell_next h
  split at h
  · exact .of_ret h
  · exact (Answered.of_ret h).of_afterDraw

end Answers

/-- A pure, cached or external operation only answers. -/
theorem exec_answered {i : Instr} {s t : State} (hpure : usesTransport i = false) (h : exec i s = .next t) :
    Answered s t := by
  cases i with
  | decodePdoFixed w | decodePdoBattery w | decodePdoVariable w | decodePdoPps w | decodePdoEprAvs w
  | decodePdoOpaque w | encodeRdoFixed r | encodeRdoBattery r | encodeRdoPps r | encodeRdoAvs r | checkRdo p r
  | decodeStatus b => exact .of_ret h
  | decodeRdoFixed w | decodeRdoBattery w | decodeRdoPps w | decodeRdoAvs w => exact .of_returnRdo h
  | getPdoCnt | getLastRdo | getStatus | getLastVoltage | getLastTemp => exact .of_needCell_ret h
  | getPdo p => exact .of_execGetPdo h
  | getLastCurrent => exact .of_execGetLastCurrent h
  | pollInt => exact (Answered.of_ret h).of_afterDraw
  | _ => cases hpure

/-! ## The transactions of one operation -/

/-- The transactions of an operation with its result: each is one of the address map; one that fails ends the operation
and is its error, but for the probe, whose failure is an answer (20_memory.md R77, R82; 60_exceptions.md R422;
45_device_control.md R400). -/
inductive Transcript (i : Instr) (dev : BitVec 7) : List Transaction → Option OpResult → Prop where
  | ended {r : Option OpResult} (hr : r ≠ some (.err .transportFailure)) : Transcript i dev [] r
  | failed {x : Transaction} (hmap : x.mapped dev = true) (hx : x.ok = false) :
      Transcript i dev [x] (some (.err .transportFailure))
  | succeeded {x : Transaction} {ts : List Transaction} {r : Option OpResult} (hmap : x.mapped dev = true)
      (hx : x.ok = true) (h : Transcript i dev ts r) : Transcript i dev (x :: ts) r
  | probed (hi : i = .isPresent) (ok : Bool) : Transcript i dev [.probe dev ok] (some (.ok (.bool ok)))

namespace Transcript

variable {i : Instr} {dev : BitVec 7} {ts : List Transaction} {r : Option OpResult}

theorem mapped (h : Transcript i dev ts r) : ∀ x ∈ ts, x.mapped dev = true := by
  induction h with
  | ended => exact List.forall_mem_nil _
  | failed hmap => exact List.forall_mem_singleton.mpr hmap
  | succeeded hmap _ _ ih => exact List.forall_mem_cons.mpr ⟨hmap, ih⟩
  | probed => exact List.forall_mem_singleton.mpr (beq_self_eq_true dev)

theorem ok_of_mem_dropLast (h : Transcript i dev ts r) : ∀ x ∈ ts.dropLast, x.ok = true := by
  induction h with
  | ended | failed | probed => exact List.forall_mem_nil _
  | @succeeded x ts _ _ hx _ ih =>
    cases ts with
    | nil => exact List.forall_mem_nil _
    | cons y ts => exact List.forall_mem_cons.mpr ⟨hx, ih⟩

theorem exists_failed_iff (h : Transcript i dev ts r) (hi : i ≠ .isPresent) :
    (∃ x ∈ ts, x.ok = false) ↔ r = some (.err .transportFailure) := by
  induction h with
  | ended hr => simp [hr]
  | failed _ hx => simp [hx]
  | succeeded _ hx _ ih => simp [hx, ih]
  | probed hprobe => exact absurd hprobe hi

end Transcript

theorem Transaction.mapped_read_some {a : RegAddr} {n : Nat} (ha : (a, n) ∈ mappedReads) (dev : BitVec 7)
    (b : Vector Byte n) : (Transaction.read dev a n (some b.toList)).mapped dev = true := by
  simp [Transaction.mapped, ha]

theorem Transaction.mapped_read_none {a : RegAddr} {n : Nat} (ha : (a, n) ∈ mappedReads) (dev : BitVec 7) :
    (Transaction.read dev a n none).mapped dev = true := by
  simp [Transaction.mapped, ha]

theorem Transaction.mapped_write {a : RegAddr} {bs : List Byte} (ha : (a, bs.length) ∈ mappedWrites) (dev : BitVec 7)
    (ok : Bool) : (Transaction.write dev a bs ok).mapped dev = true := by
  simp [Transaction.mapped, ha]

/-- From `s` to `t` the device has seen a transcript of the operation, after all it saw before (20_memory.md R85). -/
def Issues (i : Instr) (s t : State) : Prop :=
  ∃ ts : List Transaction, t.bus = s.bus ++ ts ∧ Transcript i s.params.devAddr ts t.result

section Shapes

variable {i : Instr} {s t u : State}

theorem Issues.of_answered (h : Answered s t) : Issues i s t :=
  ⟨[], by rw [h.bus, List.append_nil], .ended h.result⟩

theorem Issues.of_setBlock {b : Block} (h : Issues i (s.setBlock b) t) : Issues i s t := h

theorem Issues.of_raise_transportFailure {x : Transaction} (hmap : x.mapped s.params.devAddr = true)
    (hx : x.ok = false) (hu : u.bus = s.bus ++ [x]) (h : u.raise .transportFailure = .next t) : Issues i s t := by
  rw [State.raise_eq] at h
  cases h
  exact ⟨[x], hu, .failed hmap hx⟩

/-- After a transaction that succeeds, the transcript goes on with what follows it. -/
theorem Issues.of_succeeded {x : Transaction} (h : Issues i u t) (hmap : x.mapped s.params.devAddr = true)
    (hx : x.ok = true) (hbus : u.bus = s.bus ++ [x]) (hparams : u.params = s.params) : Issues i s t := by
  obtain ⟨ts, hts, htranscript⟩ := h
  rw [hparams] at htranscript
  refine ⟨x :: ts, ?_, .succeeded hmap hx htranscript⟩
  rw [hts, hbus, List.append_assoc, List.singleton_append]

theorem Issues.of_readThen {a : RegAddr} {n : Nat} {hn : n ≤ 28}
    {k : Vector Byte n → State → Host.Outcome State Fault Refusal} (ha : (a, n) ∈ mappedReads)
    (h : readThen a n hn k s = .next t) (hk : ∀ b u, k b u = .next t → Issues i u t) : Issues i s t := by
  cases hok : s.draw.ok with
  | true =>
    rw [readThen_ok a n hn k s hok] at h
    exact (hk _ _ h).of_succeeded (Transaction.mapped_read_some ha _ _) rfl rfl rfl
  | false =>
    rw [readThen_fail a n hn k s hok] at h
    exact .of_raise_transportFailure (Transaction.mapped_read_none ha _) rfl rfl h

theorem Issues.of_readThen_ret {a : RegAddr} {n : Nat} {hn : n ≤ 28} {f : Vector Byte n → Value}
    (ha : (a, n) ∈ mappedReads) (h : readThen a n hn (fun b u => u.ret (f b)) s = .next t) : Issues i s t :=
  .of_readThen ha h fun _ _ hu => .of_answered (.of_ret hu)

theorem Issues.of_snapshotRead {a : RegAddr} {get : Block → Option Byte} {set : Block → Option Byte → Block}
    {k : Byte → Value} (ha : (a, 1) ∈ mappedReads) (h : snapshotRead a get set k s = .next t) : Issues i s t := by
  cases hok : s.draw.ok with
  | true =>
    rw [snapshotRead_ok a get set k s hok] at h
    exact (Issues.of_answered (.of_ret h)).of_succeeded (Transaction.mapped_read_some ha _ _) rfl rfl rfl
  | false =>
    rw [snapshotRead_fail a get set k s hok] at h
    exact .of_raise_transportFailure (Transaction.mapped_read_none ha _) rfl rfl h

theorem Issues.of_configWrite {a : RegAddr} {bs : List Byte} (ha : (a, bs.length) ∈ mappedWrites)
    (h : configWrite a bs s = .next t) : Issues i s t := by
  cases hok : s.draw.ok with
  | true =>
    rw [configWrite_ok a bs s hok] at h
    exact (Issues.of_answered (.of_ret h)).of_succeeded (Transaction.mapped_write ha _ _) rfl rfl rfl
  | false =>
    rw [configWrite_fail a bs s hok] at h
    exact .of_raise_transportFailure (Transaction.mapped_write ha _ _) rfl rfl h

/-- Configuration writes in order: the first that fails is the last issued (20_memory.md R82). -/
theorem Issues.of_configWrites {ws : List (RegAddr × Byte)} (hw : ∀ x ∈ ws, (x.1, 1) ∈ mappedWrites)
    (h : configWrites ws s = .next t) : Issues i s t := by
  induction ws generalizing s with
  | nil =>
    rw [configWrites_nil] at h
    exact .of_answered (.of_ret h)
  | cons x rest ih =>
    obtain ⟨a, b⟩ := x
    obtain ⟨ha, hrest⟩ := List.forall_mem_cons.mp hw
    have hmap (ok : Bool) := Transaction.mapped_write (bs := [b]) ha s.params.devAddr ok
    cases hok : s.draw.ok with
    | true =>
      rw [configWrites_cons_ok a b rest s hok] at h
      exact (ih hrest h).of_succeeded (hmap true) rfl rfl rfl
    | false =>
      rw [configWrites_cons_fail a b rest s hok] at h
      exact .of_raise_transportFailure (hmap false) rfl rfl h

theorem Issues.of_requestWrite {w : Word} (h : requestWrite w s = .next t) : Issues i s t := by
  have ha : (0x30#8, (bytesLe32 w).length) ∈ mappedWrites := WritesRegister.resetRdo.1
  cases hok : s.draw.ok with
  | true =>
    rw [requestWrite_ok w s hok] at h
    exact (Issues.of_answered (.of_ret h)).of_succeeded (Transaction.mapped_write ha _ _) rfl rfl rfl
  | false =>
    rw [requestWrite_fail w s hok] at h
    exact .of_raise_transportFailure (Transaction.mapped_write ha _ _) rfl rfl h

end Shapes

section Operations

variable {i : Instr} {s t : State}

theorem Issues.of_execRefreshPdos (h : execRefreshPdos s = .next t) : Issues i s t := by
  refine .of_readThen (by decide) h fun table s1 h1 => ?_
  refine .of_readThen (by decide) h1 fun count s2 h2 => ?_
  exact (Issues.of_answered (.of_ret h2)).of_setBlock

theorem Issues.of_execReadStatus (h : execReadStatus s = .next t) : Issues i s t :=
  Issues.of_snapshotRead (a := 0x1D#8) (by decide) h

theorem Issues.of_execReadVoltage (h : execReadVoltage s = .next t) : Issues i s t :=
  Issues.of_snapshotRead (a := 0x20#8) (by decide) h

theorem Issues.of_execReadCurrent (h : execReadCurrent s = .next t) : Issues i s t :=
  Issues.of_snapshotRead (a := 0x21#8) (by decide) h

theorem Issues.of_execReadTemp (h : execReadTemp s = .next t) : Issues i s t :=
  Issues.of_snapshotRead (a := 0x22#8) (by decide) h

theorem Issues.of_execWriteRdo {r : Rdo} (h : execWriteRdo r s = .next t) : Issues i s t := by
  unfold execWriteRdo at h
  obtain ⟨n, -, h⟩ := needCell_next h
  dsimp only at h
  split at h
  · exact .of_answered (.of_raise (by simp) h)
  · obtain ⟨w, -, h⟩ := needCell_next h
    split at h
    · exact .of_requestWrite h
    · exact .of_answered (.of_raise (by simp) h)

theorem Issues.of_execSetOcp {mA : Nat} (h : execSetOcp mA s = .next t) : Issues i s t := by
  unfold execSetOcp at h
  split at h
  · exact .of_answered (.of_raise (by simp) h)
  · exact .of_configWrite (by simp [mappedWrites]) h

theorem Issues.of_setDegrees {a : RegAddr} {c : Nat} (ha : (a, 1) ∈ mappedWrites) (h : setDegrees a c s = .next t) :
    Issues i s t := by
  unfold setDegrees at h
  split at h
  · exact .of_answered (.of_raise (by simp) h)
  · exact .of_configWrite ha h

theorem Issues.of_execSetNtc {k ohm : Nat} (h : execSetNtc k ohm s = .next t) : Issues i s t := by
  unfold execSetNtc at h
  split at h
  · exact .of_answered (.of_raise (by simp) h)
  · next a ha =>
    split at h
    · exact .of_answered (.of_raise (by simp) h)
    · exact .of_configWrite (WritesRegister.setNtc (ohm := ohm) ha).1 h

/-- The register of an NTC point is read with two bytes (44_measure_threshold.md R363). -/
theorem ntcAddr_mem_mappedReads {k : Nat} {a : RegAddr} (ha : ntcAddr k = some a) : (a, 2) ∈ mappedReads := by
  unfold ntcAddr at ha
  split_ifs at ha <;> cases ha <;> decide

theorem Issues.of_execGetNtc {k : Nat} (h : execGetNtc k s = .next t) : Issues i s t := by
  unfold execGetNtc at h
  split at h
  · exact .of_answered (.of_raise (by simp) h)
  · next a ha => exact .of_readThen_ret (ntcAddr_mem_mappedReads ha) h

/-- The probe's failure is the answer false, not an error (45_device_control.md R400). -/
theorem Issues.of_execIsPresent (h : execIsPresent s = .next t) : Issues .isPresent s t := by
  rw [execIsPresent, State.probe_eq, State.ret_eq] at h
  cases h
  exact ⟨_, rfl, .probed rfl _⟩

theorem Issues.of_execInit (h : execInit s = .next t) : Issues i s t := by
  refine .of_configWrites (fun x hx => ?_) h
  have hreg : ∀ a ∈ [0x1E#8, 0x23#8, 0x24#8, 0x25#8], (a, 1) ∈ mappedWrites := by decide
  exact hreg x.1 (List.mem_map_of_mem (f := Prod.fst) hx)

end Operations

/-- Every operation that answers has issued a transcript. -/
theorem exec_transcript {i : Instr} {s t : State} (h : exec i s = .next t) : Issues i s t := by
  cases i with
  | refreshPdos => exact .of_execRefreshPdos h
  | writeRdo r => exact .of_execWriteRdo h
  | resetRdo => exact .of_requestWrite h
  | readStatus => exact .of_execReadStatus h
  | readVoltage => exact .of_execReadVoltage h
  | readCurrent => exact .of_execReadCurrent h
  | readTemp => exact .of_execReadTemp h
  | setMask m => exact .of_configWrite (by simp [mappedWrites]) h
  | getMask | getOcp | getOtp | getDr => exact .of_readThen_ret (by decide) h
  | setOcp mA => exact .of_execSetOcp h
  | setOtp c | setDr c => exact .of_setDegrees (by decide) h
  | setNtc k ohm => exact .of_execSetNtc h
  | getNtc k => exact .of_execGetNtc h
  | isPresent => exact .of_execIsPresent h
  | init => exact .of_execInit h
  | _ => exact .of_answered (exec_answered rfl h)

/-! ## Device bytes outside the operation's register (20_memory.md R83) -/

/-- A byte that the operation does not write lies outside every register that it writes. -/
theorem WritesRegister.outside {i : Instr} {b : RegAddr} {n a : Nat} (hreg : WritesRegister i b n)
    (ha : writesTo i a = false) : ¬ (b.toNat ≤ a ∧ a < b.toNat + n) := by
  rintro ⟨hle, hlt⟩
  obtain ⟨-, hbytes⟩ := hreg
  have hwritten := hbytes (a - b.toNat) (by omega)
  rw [Nat.add_sub_cancel' hle, ha] at hwritten
  cases hwritten

theorem RegisterWrite.read_eq {i : Instr} {m m' : Memory} {a : Nat} (hw : RegisterWrite i m m')
    (ha : writesTo i a = false) : Memory.read m' a = Memory.read m a := by
  cases hw with
  | succeeded b bs hreg => rw [Memory.read_writeBytes, if_neg (hreg.outside ha)]
  | failed b n hreg => rw [Memory.read_forgetBytes, if_neg (hreg.outside ha)]

theorem registerWrites_read_eq {i : Instr} {m m' : Memory} {a : Nat}
    (hw : Relation.ReflTransGen (RegisterWrite i) m m') (ha : writesTo i a = false) :
    Memory.read m' a = Memory.read m a := by
  induction hw with
  | refl => rfl
  | tail _ hlast ih => rw [hlast.read_eq ha, ih]

/-! ## Results read from the block alone (20_memory.md R89) -/

/-- Where the first answers, the second answers with the same result. -/
def SameResult (o p : Host.Outcome State Fault Refusal) : Prop :=
  ∀ s, o = .next s → ∃ t, p = .next t ∧ t.result = s.result

section Results

variable {s t : State}

theorem SameResult.ret {v w : Value} (hvw : v = w) : SameResult (s.ret v) (t.ret w) := by
  subst hvw
  intro s' h
  rw [State.ret_eq] at h
  cases h
  exact ⟨_, State.ret_eq t v, rfl⟩

theorem SameResult.raise {e : Err} : SameResult (s.raise e) (t.raise e) := by
  intro s' h
  rw [State.raise_eq] at h
  cases h
  exact ⟨_, State.raise_eq t e, rfl⟩

theorem SameResult.needCell {α : Type} {c : BlockCell} {x y : Option α}
    {k l : α → Host.Outcome State Fault Refusal} (hxy : x = y) (hk : ∀ v, SameResult (k v) (l v)) :
    SameResult (needCell c x k) (needCell c y l) := by
  subst hxy
  intro s' h
  obtain ⟨v, rfl, hv⟩ := needCell_next h
  exact hk v s' hv

theorem SameResult.returnRdo (hlayout : s.params.layout = t.params.layout) (k : RdoKind) (w : Word) :
    SameResult (returnRdo k w s) (returnRdo k w t) := by
  unfold Machine.returnRdo
  rw [hlayout]
  split
  · exact .ret rfl
  · exact .raise

/-- The checks on position and count come out alike, and the slot is the block's (42_pdo_rdo_registers.md R283). -/
theorem SameResult.execGetPdo (hblock : s.block = t.block) (hlayout : s.params.layout = t.params.layout) (p : Nat) :
    SameResult (execGetPdo p s) (execGetPdo p t) := by
  unfold Machine.execGetPdo
  rw [hlayout]
  split
  · exact .raise
  · refine .needCell (by rw [hblock]) fun n => ?_
    split
    · exact .raise
    · exact .needCell (by rw [hblock]) fun w => .ret rfl

/-- With the default shunt the scale is known and the free amount is not looked at (44_measure_threshold.md R354). -/
theorem SameResult.execGetLastCurrent (hblock : s.block = t.block) (hs : s.params.shuntDefault = true)
    (ht : t.params.shuntDefault = true) : SameResult (execGetLastCurrent s) (execGetLastCurrent t) := by
  unfold Machine.execGetLastCurrent
  rw [hs, ht]
  exact .needCell (by rw [hblock]) fun b => .ret rfl

end Results

/-- A pure or cached operation answers alike in states with one block, one layout and the default shunt. -/
theorem exec_sameResult {i : Instr} {s t : State} (hpure : usesTransport i = false) (hpoll : i ≠ .pollInt)
    (hblock : s.block = t.block) (hlayout : s.params.layout = t.params.layout)
    (hs : s.params.shuntDefault = true) (ht : t.params.shuntDefault = true) : SameResult (exec i s) (exec i t) := by
  cases i with
  | decodePdoFixed w | decodePdoBattery w | decodePdoVariable w | decodePdoPps w | decodePdoEprAvs w
  | decodePdoOpaque w | encodeRdoFixed r | encodeRdoBattery r | encodeRdoPps r | encodeRdoAvs r =>
    exact .ret (by rw [hlayout])
  | decodeRdoFixed w | decodeRdoBattery w | decodeRdoPps w | decodeRdoAvs w => exact .returnRdo hlayout _ w
  | checkRdo p r | decodeStatus b => exact .ret rfl
  | getPdoCnt | getLastRdo | getStatus | getLastVoltage | getLastTemp =>
    exact .needCell (by rw [hblock]) fun _ => .ret rfl
  | getPdo p => exact .execGetPdo hblock hlayout p
  | getLastCurrent => exact .execGetLastCurrent hblock hs ht
  | pollInt => exact absurd rfl hpoll
  | _ => cases hpure

/-! ## The statements -/

/-- Settles O51, by what a transcript is: a failed transaction is its last and is the operation's error. -/
theorem nothingFollowsAFailedTransaction : Obligations.NothingFollowsAFailedTransaction := by
  intro i s t h
  obtain ⟨ts, hbus, htranscript⟩ := exec_transcript h
  exact ⟨ts, hbus, htranscript.ok_of_mem_dropLast, htranscript.exists_failed_iff⟩

/-- Settles O52: a transcript is of the address map, and an operation that only answers leaves the record as it was. -/
theorem onlyMappedTransactionsAreIssued : Obligations.OnlyMappedTransactionsAreIssued := by
  intro i s t h
  obtain ⟨ts, hbus, htranscript⟩ := exec_transcript h
  refine ⟨ts, hbus, htranscript.mapped, fun hpure => ?_⟩
  rw [(exec_answered hpure h).bus] at hbus
  exact List.self_eq_append_right.mp hbus

/-- Settles O53: such an operation only answers. -/
theorem pureAndCachedOperationsChangeNoCell : Obligations.PureAndCachedOperationsChangeNoCell := by
  intro i s t hpure h
  obtain ⟨hblock, hdevice, hbus, -⟩ := exec_answered hpure h
  exact ⟨hblock, hdevice, hbus⟩

/-- Settles O57, by the register writes that `exec_effect` leaves. -/
theorem deviceBytesOutsideTheRegisterAreKept : Obligations.DeviceBytesOutsideTheRegisterAreKept := by
  intro i s t a h ha
  exact registerWrites_read_eq (exec_effect h).device ha

/-- Settles O59, by `exec_sameResult`. -/
theorem cachedResultsDependOnTheBlockAlone : Obligations.CachedResultsDependOnTheBlockAlone := by
  intro i s t s' hpure hpoll hblock hlayout hs ht h
  exact exec_sameResult hpure hpoll hblock hlayout hs ht s' h

end Sys2Proof.Machine
end

section
/-! PROOFS of 30_encoding.md: a reader takes from a call's operands exactly what the encoder writes (`Reads`), from which
decode and encode undo each other; two words that agree on a variant's fields decode alike. -/

namespace Sys2Proof

/-! ## Readers and what they read (R135, R138) -/

/-- The reader answers with `a` exactly on the operands written for `a`, and leaves what follows them. -/
def Reads {α : Type} (take : List Nat → Except CallError (α × List Nat)) (write : α → List Nat) : Prop :=
  ∀ args a rest, take args = .ok (a, rest) ↔ args = write a ++ rest

theorem reads_takeNat : Reads takeNat (fun x => [x]) :=
  fun _ _ _ => ⟨takeNat_ok, fun h => h ▸ takeNat_cons _ _⟩

theorem reads_takeBits (n : Nat) : Reads (takeBits n) (fun v => [v.toNat]) :=
  fun _ _ _ => ⟨takeBits_ok, fun h => h ▸ takeBits_toNat _ _⟩

theorem reads_takeKind : Reads takeKind (fun k => [kindArg k]) :=
  fun _ _ _ => ⟨takeKind_ok, fun h => h ▸ takeKind_kindArg _ _⟩

theorem reads_takeRdo : Reads takeRdo rdoArgs :=
  fun _ _ _ => ⟨takeRdo_ok, fun h => h ▸ takeRdo_rdoArgs _ _⟩

theorem reads_takePdo : Reads takePdo pdoArgs :=
  fun _ _ _ => ⟨takePdo_ok, fun h => h ▸ takePdo_pdoArgs _ _⟩

theorem whole_eq_ok_iff {α : Type} {x : Except CallError (α × List Nat)} {a : α} :
    whole x = .ok a ↔ x = .ok (a, []) :=
  ⟨whole_ok, fun h => h ▸ whole_nil a⟩

/-- An operation with one operand: its calls are those of the operand's numbers and no more. -/
theorem Reads.map_whole_iff {α : Type} {take : List Nat → Except CallError (α × List Nat)} {write : α → List Nat}
    (hr : Reads take write) {f : α → Instr} {args : List Nat} {i : Instr} :
    (whole (take args)).map f = .ok i ↔ ∃ a, args = write a ∧ f a = i := by
  constructor
  · intro h
    obtain ⟨a, ha, hf⟩ := except_map_ok h
    refine ⟨a, ?_, hf⟩
    rw [(hr args a []).mp (whole_ok ha), List.append_nil]
  · rintro ⟨a, rfl, rfl⟩
    have ha : take (write a) = .ok (a, []) := (hr _ a []).mpr (List.append_nil _).symm
    rw [ha, whole_nil]
    rfl

/-- An operation with two operands: the numbers of the first, then those of the second and no more. -/
theorem Reads.whole_bind_iff {α β : Type} {takeA : List Nat → Except CallError (α × List Nat)}
    {takeB : List Nat → Except CallError (β × List Nat)} {writeA : α → List Nat} {writeB : β → List Nat}
    (hA : Reads takeA writeA) (hB : Reads takeB writeB) {f : α → β → Instr} {args : List Nat} {i : Instr} :
    whole (do let (a, rest) ← takeA args
              let (b, rest) ← takeB rest
              .ok (f a b, rest)) = .ok i ↔
      ∃ a b, args = writeA a ++ writeB b ∧ f a b = i := by
  rw [whole_eq_ok_iff]
  constructor
  · intro h
    obtain ⟨a, rest, ha, h⟩ := except_bind_ok h
    obtain ⟨b, rest', hb, h⟩ := except_bind_ok h
    cases h
    refine ⟨a, b, ?_, rfl⟩
    rw [(hA _ _ _).mp ha, (hB _ _ _).mp hb, List.append_nil]
  · rintro ⟨a, b, rfl, rfl⟩
    have ha : takeA (writeA a ++ writeB b) = .ok (a, writeB b) := (hA _ _ _).mpr rfl
    have hb : takeB (writeB b) = .ok (b, []) := (hB _ _ _).mpr (List.append_nil _).symm
    simp only [ha, hb, bind, Except.bind]

/-- An operation without operands: its one call has none. -/
theorem noOperands_eq_ok_iff {i j : Instr} {args : List Nat} : noOperands j args = .ok i ↔ args = [] ∧ j = i := by
  rw [noOperands, whole_eq_ok_iff, Except.ok.injEq, Prod.mk.injEq, and_comm]

/-! ## The forms a call selects (R113, R135) -/

theorem encode_decodePdoForm (l : Layout) (w : Word) : encode (decodePdoForm l w) = ⟨.decodePdo, [w.toNat]⟩ := by
  unfold decodePdoForm
  split <;> rfl

theorem wellFormed_decodePdoForm (l : Layout) (w : Word) : (decodePdoForm l w).wellFormed l = true := by
  unfold decodePdoForm
  split <;> exact beq_iff_eq.mpr ‹_›

theorem encode_encodeRdoForm (r : Rdo) : encode (encodeRdoForm r) = ⟨.encodeRdo, rdoArgs r⟩ := by
  cases r <;> rfl

theorem wellFormed_encodeRdoForm (l : Layout) (r : Rdo) : (encodeRdoForm r).wellFormed l = true := by
  cases r <;> rfl

theorem encode_decodeRdoForm (k : RdoKind) (w : Word) :
    encode (decodeRdoForm k w) = ⟨.decodeRdo, [kindArg k, w.toNat]⟩ := by
  cases k <;> rfl

theorem wellFormed_decodeRdoForm (l : Layout) (k : RdoKind) (w : Word) :
    (decodeRdoForm k w).wellFormed l = true := by
  cases k <;> rfl

/-! ## Decode and encode undo each other -/

/-- The call of a well-formed operation form decodes to it: a DECODE_PDO form is the one its word selects, every other
form is named by the operation and its operands alone. -/
theorem decode_encode {l : Layout} {i : Instr} (h : i.wellFormed l = true) : decode l (encode i) = .ok i := by
  cases i with
  | decodePdoFixed w | decodePdoBattery w | decodePdoVariable w | decodePdoPps w | decodePdoEprAvs w
  | decodePdoOpaque w =>
    have hv := eq_of_beq h
    exact (reads_takeBits 32).map_whole_iff.mpr ⟨w, rfl, by rw [decodePdoForm, hv]⟩
  | encodeRdoFixed r => exact reads_takeRdo.map_whole_iff.mpr ⟨.fixed r, rfl, rfl⟩
  | encodeRdoBattery r => exact reads_takeRdo.map_whole_iff.mpr ⟨.battery r, rfl, rfl⟩
  | encodeRdoPps r => exact reads_takeRdo.map_whole_iff.mpr ⟨.pps r, rfl, rfl⟩
  | encodeRdoAvs r => exact reads_takeRdo.map_whole_iff.mpr ⟨.avs r, rfl, rfl⟩
  | decodeRdoFixed w | decodeRdoBattery w | decodeRdoPps w | decodeRdoAvs w =>
    exact (reads_takeKind.whole_bind_iff (reads_takeBits 32)).mpr ⟨_, w, rfl, rfl⟩
  | checkRdo p r => exact (reads_takePdo.whole_bind_iff reads_takeRdo).mpr ⟨p, r, rfl, rfl⟩
  | setNtc k ohm => exact (reads_takeNat.whole_bind_iff reads_takeNat).mpr ⟨k, ohm, rfl, rfl⟩
  | decodeStatus b | setMask b => exact (reads_takeBits 8).map_whole_iff.mpr ⟨b, rfl, rfl⟩
  | writeRdo r => exact reads_takeRdo.map_whole_iff.mpr ⟨r, rfl, rfl⟩
  | setOcp n | setOtp n | setDr n | getNtc n | getPdo n => exact reads_takeNat.map_whole_iff.mpr ⟨n, rfl, rfl⟩
  | _ => exact noOperands_eq_ok_iff.mpr ⟨rfl, rfl⟩

/-- A call that decodes is the call of the form it decodes to, and that form is well formed. -/
theorem encode_wellFormed_of_decode {l : Layout} {c : Call} {i : Instr} (h : decode l c = .ok i) :
    encode i = c ∧ i.wellFormed l = true := by
  obtain ⟨op, args⟩ := c
  cases op with
  | decodePdo =>
    obtain ⟨w, rfl, rfl⟩ := (reads_takeBits 32).map_whole_iff.mp h
    exact ⟨encode_decodePdoForm l w, wellFormed_decodePdoForm l w⟩
  | encodeRdo =>
    obtain ⟨r, rfl, rfl⟩ := reads_takeRdo.map_whole_iff.mp h
    exact ⟨encode_encodeRdoForm r, wellFormed_encodeRdoForm l r⟩
  | decodeRdo =>
    obtain ⟨k, w, rfl, rfl⟩ := (reads_takeKind.whole_bind_iff (reads_takeBits 32)).mp h
    exact ⟨encode_decodeRdoForm k w, wellFormed_decodeRdoForm l k w⟩
  | checkRdo =>
    obtain ⟨p, r, rfl, rfl⟩ := (reads_takePdo.whole_bind_iff reads_takeRdo).mp h
    exact ⟨rfl, rfl⟩
  | setNtc =>
    obtain ⟨k, ohm, rfl, rfl⟩ := (reads_takeNat.whole_bind_iff reads_takeNat).mp h
    exact ⟨rfl, rfl⟩
  | decodeStatus | setMask =>
    obtain ⟨b, rfl, rfl⟩ := (reads_takeBits 8).map_whole_iff.mp h
    exact ⟨rfl, rfl⟩
  | writeRdo =>
    obtain ⟨r, rfl, rfl⟩ := reads_takeRdo.map_whole_iff.mp h
    exact ⟨rfl, rfl⟩
  | setOcp | setOtp | setDr | getNtc | getPdo =>
    obtain ⟨n, rfl, rfl⟩ := reads_takeNat.map_whole_iff.mp h
    exact ⟨rfl, rfl⟩
  | _ =>
    obtain ⟨rfl, rfl⟩ := noOperands_eq_ok_iff.mp h
    exact ⟨rfl, rfl⟩

/-! ## Table words (R136, log 12) -/

theorem decodeTableWord_word (w : Word) :
    decodeTableWord 32 w.toNat = some (decodePdoForm Machine.defaultLayout w) := by
  have h : decode Machine.defaultLayout ⟨.decodePdo, [w.toNat]⟩ = .ok (decodePdoForm Machine.defaultLayout w) :=
    (reads_takeBits 32).map_whole_iff.mpr ⟨w, rfl, rfl⟩
  simp [decodeTableWord, callOfTableWord, h]

theorem decodeTableWord_byte (b : Byte) : decodeTableWord 8 b.toNat = some (.decodeStatus b) := by
  have h : decode Machine.defaultLayout ⟨.decodeStatus, [b.toNat]⟩ = .ok (.decodeStatus b) :=
    decode_encode (i := .decodeStatus b) rfl
  simp [decodeTableWord, callOfTableWord, h]

end Sys2Proof

namespace Sys2Proof.Machine

/-! ## Words that agree on the fields of a variant (R113, R128) -/

/-- A field that lies under a mask is the same in words that the mask does not tell apart. -/
theorem field_eq_of_and_eq {n : Nat} {w v m : Word} {p : FieldPos} (hm : (field m p : BitVec n) = BitVec.allOnes n)
    (h : w &&& m = v &&& m) : (field w p : BitVec n) = field v p := by
  have cut (x : Word) : (field x p : BitVec n) = field (x &&& m) p := by
    have hand : (field (x &&& m) p : BitVec n) = field x p &&& field m p := BitVec.extractLsb'_and
    rw [hand, hm, BitVec.and_allOnes]
  rw [cut w, cut v, h]

/-- Two words agree on every field of a PDO variant, the tags among them. -/
def AgreeOn (l : Layout) (x : PdoVariant) (w v : Word) : Prop :=
  ∀ f ∈ l.pdoFields x, (field w f.1 : BitVec f.2) = field v f.1

/-- An augmented PDO's variant has the power range among its fields. -/
theorem powerRange_mem_pdoFields {l : Layout} {w : Word} (hf : field w l.typeTag ≠ l.tagFixed)
    (hb : field w l.typeTag ≠ l.tagBattery) (hv : field w l.typeTag ≠ l.tagVariable) :
    (l.powerRange, 2) ∈ l.pdoFields (variant l w) := by
  simp only [variant, if_neg hf, if_neg hb, if_neg hv]
  split_ifs <;> simp [Layout.pdoFields]

/-- The variant is decided by fields of its own: the type tag, and the power range where the PDO is augmented. -/
theorem AgreeOn.variant_eq {l : Layout} {w v : Word} (h : AgreeOn l (variant l w) w v) : variant l v = variant l w := by
  have htag : (field w l.typeTag : BitVec 2) = field v l.typeTag := h (l.typeTag, 2) List.mem_cons_self
  by_cases hf : field w l.typeTag = l.tagFixed
  · simp [variant, ← htag, hf]
  by_cases hb : field w l.typeTag = l.tagBattery
  · simp [variant, ← htag, hb]
  by_cases hv : field w l.typeTag = l.tagVariable
  · simp [variant, ← htag, hv]
  have hrange : (field w l.powerRange : BitVec 2) = field v l.powerRange :=
    h (l.powerRange, 2) (powerRange_mem_pdoFields hf hb hv)
  simp only [variant, htag, hrange]

/-- A record is made of its variant's fields; only an Opaque record holds the rest of its word too (R119). -/
theorem AgreeOn.decodePdo_eq {l : Layout} {w v : Word} (h : AgreeOn l (variant l w) w v)
    (hopaque : variant l w ≠ .opaquePdo) : decodePdo l v = decodePdo l w := by
  have hvariant := h.variant_eq
  unfold decodePdo
  rw [hvariant]
  cases hw : variant l w with
  | fixed | battery | variableSupply | pps | eprAvs =>
    rw [hw] at h
    simp only [AgreeOn, Layout.pdoFields, List.forall_mem_cons] at h
    simp [decodeFixed, decodeBattery, decodeVariable, decodePps, decodeAvs, h]
  | opaquePdo => exact absurd hw hopaque

/-- Bits outside a mask that covers the variant's fields are ignored. -/
theorem decodePdo_eq_of_and_eq {l : Layout} {x : PdoVariant} {w v m : Word} (hx : x ≠ .opaquePdo)
    (hm : ∀ f ∈ l.pdoFields x, (field m f.1 : BitVec f.2) = BitVec.allOnes f.2) (hw : variant l w = x)
    (h : w &&& m = v &&& m) : decodePdo l v = decodePdo l w := by
  subst hw
  have hagree : AgreeOn l (variant l w) w v := fun f hf => field_eq_of_and_eq (hm f hf) h
  exact hagree.decodePdo_eq hx

/-! ## The variant by the top bits (R111 to R113) -/

/-- The two top bits decide the variant where they are not those of an augmented PDO. -/
theorem variant_eq_of_ushiftRight_30 {w c : Word} (h : w >>> 30 = c) (hc : c.toNat < 3) :
    variant defaultLayout w =
      if c.toNat = 0 then .fixed else if c.toNat = 1 then .battery else .variableSupply := by
  have htag : w.toNat / 2 ^ 30 = c.toNat := by rw [← h, BitVec.toNat_ushiftRight, Nat.shiftRight_eq_div_pow]
  rw [variant_defaultLayout, htag]
  generalize c.toNat = t at hc ⊢
  interval_cases t <;> rfl

/-- The four top bits decide the variant of an augmented PDO. -/
theorem variant_eq_of_ushiftRight_28 {w c : Word} (h : w >>> 28 = c) (hc : c.toNat / 4 = 3) :
    variant defaultLayout w =
      if c.toNat = 12 then .pps else if c.toNat = 13 then .eprAvs else .opaquePdo := by
  have htop : w.toNat / 2 ^ 28 = c.toNat := by rw [← h, BitVec.toNat_ushiftRight, Nat.shiftRight_eq_div_pow]
  have htag : w.toNat / 2 ^ 30 = 3 := by omega
  rw [variant_defaultLayout, htag, htop]
  rfl

/-! ## The statements -/

/-- Settles O1, by `decode_encode`. -/
theorem decodeOfEncodeGivesTheOperationBack : Obligations.DecodeOfEncodeGivesTheOperationBack :=
  fun _ _ h => decode_encode h

/-- Settles O2, by `encode_wellFormed_of_decode`. -/
theorem encodeOfDecodeGivesTheCallBack : Obligations.EncodeOfDecodeGivesTheCallBack :=
  fun _ _ _ h => encode_wellFormed_of_decode h

/-- Settles O10: each mask covers every field of its variant. -/
theorem reservedPdoBitsAreIgnored : Obligations.ReservedPdoBitsAreIgnored := by
  intro w v
  exact ⟨decodePdo_eq_of_and_eq (by decide) (by decide), decodePdo_eq_of_and_eq (by decide) (by decide),
    decodePdo_eq_of_and_eq (by decide) (by decide)⟩

/-- Settles O3: a table word is the word of a DECODE_PDO or DECODE_STATUS call, and its tags select the form. -/
theorem writtenOutWordsDecodeToTheirForms : Obligations.WrittenOutWordsDecodeToTheirForms :=
  ⟨decodeTableWord_word 0x0A01912C#32, decodeTableWord_word 0x5A44B190#32, decodeTableWord_word 0x9A4190C8#32,
    decodeTableWord_word 0xC0DC213C#32, decodeTableWord_word 0xD230968C#32, decodeTableWord_word 0xE0001234#32,
    decodeTableWord_byte 0x81#8⟩

/-- Settles O7, by the variant as a function of the two or four top bits. -/
theorem variantFollowsTypeTagAndPowerRange : Obligations.VariantFollowsTypeTagAndPowerRange := fun _ =>
  ⟨fun h => variant_eq_of_ushiftRight_30 h (by decide), fun h => variant_eq_of_ushiftRight_30 h (by decide),
    fun h => variant_eq_of_ushiftRight_30 h (by decide), fun h => variant_eq_of_ushiftRight_28 h (by decide),
    fun h => variant_eq_of_ushiftRight_28 h (by decide), fun h => variant_eq_of_ushiftRight_28 h (by decide),
    fun h => variant_eq_of_ushiftRight_28 h (by decide)⟩

end Sys2Proof.Machine
end

section
/-! PROOFS of 40_pdo_decoder.md: a field is the shift-and-mask of its word (`field_eq_shift_and_mask`), DECODE_PDO is
the record of the word's variant, and a scaled field is bounded by its width. -/

namespace Sys2Proof.Machine

/-! ## Fields as shift-and-mask (R210) -/

/-- A mask whose low `n` bits are all set cuts the shifted word to the field; its other bits do not matter. -/
theorem field_eq_shift_and_mask {n : Nat} {w m : Word} {p : FieldPos} (hm : m.setWidth n = BitVec.allOnes n) :
    (field w p : BitVec n) = ((w >>> p.lo) &&& m).setWidth n := by
  rw [BitVec.setWidth_and, hm, BitVec.and_allOnes]
  ext i hi
  simp [field]

/-- A field at the bottom of the word needs no shift. -/
theorem field_eq_mask {n : Nat} {w m : Word} {p : FieldPos} (hp : p.lo = 0) (hm : m.setWidth n = BitVec.allOnes n) :
    (field w p : BitVec n) = (w &&& m).setWidth n := by
  rw [field_eq_shift_and_mask hm, hp, BitVec.ushiftRight_zero]

/-! ## The record of the word's variant (R200) -/

section Records

variable {l : Layout} {w : Word}

theorem decodePdo_of_fixed (h : variant l w = .fixed) : decodePdo l w = .fixed (decodeFixed l w) := by
  rw [decodePdo, h]

theorem decodePdo_of_battery (h : variant l w = .battery) : decodePdo l w = .battery (decodeBattery l w) := by
  rw [decodePdo, h]

theorem decodePdo_of_variableSupply (h : variant l w = .variableSupply) :
    decodePdo l w = .variableSupply (decodeVariable l w) := by
  rw [decodePdo, h]

theorem decodePdo_of_pps (h : variant l w = .pps) : decodePdo l w = .pps (decodePps l w) := by
  rw [decodePdo, h]

theorem decodePdo_of_eprAvs (h : variant l w = .eprAvs) : decodePdo l w = .eprAvs (decodeAvs l w) := by
  rw [decodePdo, h]

theorem decodePdo_of_opaquePdo (h : variant l w = .opaquePdo) : decodePdo l w = .opaquePdo w := by
  rw [decodePdo, h]

end Records

/-- What every DECODE_PDO form does, whichever row of the table it is (R208). -/
theorem returnPdo_eq (w : Word) (s : State) :
    returnPdo w s = .next { s with result := some (.ok (.pdo (decodePdo s.params.layout w))) } := rfl

/-! ## Opaque words (R206, 30_encoding.md R127) -/

theorem matchesRdo_opaquePdo (w : Word) (r : Rdo) : matchesRdo (.opaquePdo w) r = false := rfl

/-- The three top bits 111 are an augmented type tag with one of the two reserved power ranges. -/
theorem variant_eq_opaquePdo_of_ushiftRight_29 {w : Word} (h : w >>> 29 = 7#32) :
    variant defaultLayout w = .opaquePdo := by
  have htop : w.toNat / 2 ^ 29 = 7 := by
    rw [← Nat.shiftRight_eq_div_pow, ← BitVec.toNat_ushiftRight, h]
    rfl
  have htag : w.toNat / 2 ^ 30 = 3 := by omega
  have hpps : w.toNat / 2 ^ 28 ≠ 12 := by omega
  have havs : w.toNat / 2 ^ 28 ≠ 13 := by omega
  rw [variant_defaultLayout, htag, if_neg (by decide), if_neg (by decide), if_neg (by decide), if_neg hpps, if_neg havs]

/-! ## Largest physical values (R207) -/

/-- A field counted in units of `k` is largest where all its bits are set. -/
theorem toNat_mul_le {n : Nat} (v : BitVec n) (k : Nat) : v.toNat * k ≤ (2 ^ n - 1) * k :=
  Nat.mul_le_mul_right k (Nat.le_sub_one_of_lt v.isLt)

/-! ## The statements -/

/-- Settles O9: the record of the variant, and each of its fields by `field_eq_shift_and_mask`. -/
theorem pdoFieldsEqualShiftAndMask : Obligations.PdoFieldsEqualShiftAndMask := by
  intro w
  refine ⟨fun h => ?fixed, fun h => ?battery, fun h => ?variableSupply, fun h => ?pps, fun h => ?eprAvs,
    decodePdo_of_opaquePdo⟩
  case fixed =>
    rw [decodePdo_of_fixed h, Pdo.fixed.injEq, decodeFixed, FixedPdo.mk.injEq]
    exact ⟨field_eq_shift_and_mask rfl, field_eq_shift_and_mask rfl, field_eq_shift_and_mask rfl,
      field_eq_shift_and_mask rfl, field_eq_shift_and_mask rfl, field_eq_shift_and_mask rfl,
      field_eq_shift_and_mask rfl, field_eq_shift_and_mask rfl, field_eq_shift_and_mask rfl, field_eq_mask rfl rfl⟩
  case battery =>
    rw [decodePdo_of_battery h, Pdo.battery.injEq, decodeBattery, BatteryPdo.mk.injEq]
    exact ⟨field_eq_shift_and_mask rfl, field_eq_shift_and_mask rfl, field_eq_mask rfl rfl⟩
  case variableSupply =>
    rw [decodePdo_of_variableSupply h, Pdo.variableSupply.injEq, decodeVariable, VariablePdo.mk.injEq]
    exact ⟨field_eq_shift_and_mask rfl, field_eq_shift_and_mask rfl, field_eq_mask rfl rfl⟩
  case pps =>
    rw [decodePdo_of_pps h, Pdo.pps.injEq, decodePps, PpsPdo.mk.injEq]
    exact ⟨field_eq_shift_and_mask rfl, field_eq_shift_and_mask rfl, field_eq_shift_and_mask rfl,
      field_eq_mask rfl rfl⟩
  case eprAvs =>
    rw [decodePdo_of_eprAvs h, Pdo.eprAvs.injEq, decodeAvs, AvsPdo.mk.injEq]
    exact ⟨field_eq_shift_and_mask rfl, field_eq_shift_and_mask rfl, field_eq_shift_and_mask rfl,
      field_eq_mask rfl rfl⟩

/-- Settles O8: the six forms are one meaning, and the dispatch is `decodePdo` variant by variant. -/
theorem decodePdoReturnsTheVariantRecord : Obligations.DecodePdoReturnsTheVariantRecord := by
  intro w s
  have hform := returnPdo_eq w s
  refine ⟨⟨hform, hform, hform, hform, hform, hform⟩, ?_⟩
  cases h : variant s.params.layout w with
  | fixed => exact decodePdo_of_fixed h
  | battery => exact decodePdo_of_battery h
  | variableSupply => exact decodePdo_of_variableSupply h
  | pps => exact decodePdo_of_pps h
  | eprAvs => exact decodePdo_of_eprAvs h
  | opaquePdo => exact decodePdo_of_opaquePdo h

/-- Settles O11: an Opaque record is the word itself, and the bits 111 leave no other variant. -/
theorem opaquePdoCarriesTheRawWord : Obligations.OpaquePdoCarriesTheRawWord := by
  refine ⟨fun w s h => ⟨?_, matchesRdo_opaquePdo w⟩, fun _ => variant_eq_opaquePdo_of_ushiftRight_29⟩
  rw [← decodePdo_of_opaquePdo h]
  exact returnPdo_eq w s

/-- Settles O12: the products are the definitions, the largest values those of fields with all bits set. -/
theorem pdoPhysicalValuesAreExactProducts : Obligations.PdoPhysicalValuesAreExactProducts := by
  refine ⟨fun p => ?fixed, fun p => ?battery, fun p => ⟨rfl, rfl, rfl⟩, fun p => ?pps, fun p => ?eprAvs⟩
  case fixed => exact ⟨rfl, toNat_mul_le p.voltage 50, rfl, toNat_mul_le p.maxCurrent 10⟩
  case battery =>
    exact ⟨rfl, toNat_mul_le p.minVoltage 50, rfl, toNat_mul_le p.maxVoltage 50, rfl, toNat_mul_le p.maxPower 250⟩
  case pps =>
    exact ⟨rfl, toNat_mul_le p.minVoltage 100, rfl, toNat_mul_le p.maxVoltage 100, rfl, toNat_mul_le p.maxCurrent 50⟩
  case eprAvs =>
    exact ⟨rfl, toNat_mul_le p.minVoltage 100, rfl, toNat_mul_le p.maxVoltage 100, rfl,
      Nat.le_sub_one_of_lt p.pdp.isLt, rfl⟩

end Sys2Proof.Machine
end

section
/-! PROOFS of 41_rdo_codec.md: a request is a list of field values (`rdoValues`), its word packs them (`pack`), and
DECODE_RDO answers with the request whose values stand in the word (`decodeRdo_eq_some_iff`). The round trip, the
position and the sum are facts about packing. -/

namespace Sys2Proof.Machine

/-! ## Field values and the word that packs them (00_scope.md R13) -/

/-- A value with the place it takes in a word. -/
structure FieldValue where
  pos : FieldPos
  width : Nat
  value : BitVec width

/-- The place and the width, as `fieldsApart` and `reservedBits` list them. -/
def FieldValue.slot (x : FieldValue) : FieldPos × Nat := (x.pos, x.width)

/-- The value times its place value. -/
def FieldValue.weight (x : FieldValue) : Nat := x.value.toNat * 2 ^ x.pos.lo

/-- The word with every value at its place and 0 elsewhere. -/
def pack (xs : List FieldValue) : Word := xs.foldr (fun x w => place x.value x.pos ||| w) 0#32

/-- Each value stands at its place in the word. -/
def Holds (w : Word) (xs : List FieldValue) : Prop := ∀ x ∈ xs, field w x.pos = x.value

/-- The bits that a list of fields covers. -/
def covered (fs : List (FieldPos × Nat)) : Word := fs.foldr (fun f m => fieldMask f.1 f.2 ||| m) 0#32

theorem pack_cons (x : FieldValue) (xs : List FieldValue) : pack (x :: xs) = place x.value x.pos ||| pack xs := rfl

theorem pack_append (xs ys : List FieldValue) : pack (xs ++ ys) = pack xs ||| pack ys := by
  induction xs with
  | nil => exact BitVec.zero_or.symm
  | cons x xs ih => rw [List.cons_append, pack_cons, pack_cons, ih, BitVec.or_assoc]

theorem holds_cons {w : Word} {x : FieldValue} {xs : List FieldValue} :
    Holds w (x :: xs) ↔ field w x.pos = x.value ∧ Holds w xs := List.forall_mem_cons

theorem holds_append {w : Word} {xs ys : List FieldValue} : Holds w (xs ++ ys) ↔ Holds w xs ∧ Holds w ys :=
  List.forall_mem_append

/-- Values that fit and stand apart: the first one fits, stands apart from the rest, and so do the rest. -/
theorem valuesApart_cons {x : FieldValue} {xs : List FieldValue} :
    fieldsApart ((x :: xs).map FieldValue.slot) = true ↔
      x.pos.fits x.width = true ∧ (∀ y ∈ xs, x.pos.apart y.pos = true) ∧
        fieldsApart (xs.map FieldValue.slot) = true := by
  rw [List.map_cons, fieldsApart_cons, List.forall_mem_map]
  rfl

theorem fits_of_mem {xs : List FieldValue} (h : fieldsApart (xs.map FieldValue.slot) = true) {x : FieldValue}
    (hx : x ∈ xs) : x.pos.fits x.width = true := by
  induction xs with
  | nil => exact absurd hx List.not_mem_nil
  | cons y ys ih =>
    obtain ⟨hfit, -, hrest⟩ := valuesApart_cons.mp h
    obtain rfl | hx := List.mem_cons.mp hx
    · exact hfit
    · exact ih hrest hx

/-- Nothing stands at a place apart from every packed one. -/
theorem field_pack_of_apart {n : Nat} {p : FieldPos} (hp : p.fits n = true) {xs : List FieldValue}
    (hxs : fieldsApart (xs.map FieldValue.slot) = true) (h : ∀ x ∈ xs, p.apart x.pos = true) :
    (field (pack xs) p : BitVec n) = 0#n := by
  induction xs with
  | nil => exact BitVec.extractLsb'_zero
  | cons x xs ih =>
    obtain ⟨hfit, -, hrest⟩ := valuesApart_cons.mp hxs
    obtain ⟨hx, hxs⟩ := List.forall_mem_cons.mp h
    rw [fits_iff] at hp hfit
    rw [apart_iff] at hx
    rw [pack_cons, field_or, field_place_apart x.value x.pos p (by omega), ih hrest hxs, BitVec.zero_or]

/-- Packing is undone by reading: values that stand apart are all found at their places. -/
theorem holds_pack {xs : List FieldValue} (h : fieldsApart (xs.map FieldValue.slot) = true) : Holds (pack xs) xs := by
  induction xs with
  | nil => exact List.forall_mem_nil _
  | cons x xs ih =>
    obtain ⟨hfit, hapart, hrest⟩ := valuesApart_cons.mp h
    have hx := (fits_iff _ _).mp hfit
    refine holds_cons.mpr ⟨?_, fun y hy => ?_⟩
    · rw [pack_cons, field_or, field_place_same x.value x.pos (by omega), field_pack_of_apart hfit hrest hapart,
        BitVec.or_zero]
    · have hxy := (apart_iff _ _).mp (hapart y hy)
      have hy' := (fits_iff _ _).mp (fits_of_mem hrest hy)
      rw [pack_cons, field_or, field_place_apart x.value x.pos y.pos (by omega), ih hrest y hy, BitVec.zero_or]

/-- Reading is undone by packing, up to the bits that no value covers. -/
theorem Holds.pack_eq {w : Word} {xs : List FieldValue} (h : Holds w xs) :
    pack xs = w &&& covered (xs.map FieldValue.slot) := by
  induction xs with
  | nil => exact BitVec.and_zero.symm
  | cons x xs ih =>
    obtain ⟨hx, hxs⟩ := holds_cons.mp h
    calc pack (x :: xs)
      _ = place (field w x.pos : BitVec x.width) x.pos ||| pack xs := by rw [hx, pack_cons]
      _ = w &&& fieldMask x.pos x.width ||| w &&& covered (xs.map FieldValue.slot) := by rw [place_field, ih hxs]
      _ = w &&& covered ((x :: xs).map FieldValue.slot) := BitVec.and_or_distrib_left.symm

theorem place_toNat {n : Nat} (v : BitVec n) {p : FieldPos} (hp : p.fits n = true) :
    (place v p).toNat = v.toNat * 2 ^ p.lo := by
  have hp := (fits_iff _ _).mp hp
  have hlt : v.toNat * 2 ^ p.lo < 2 ^ 32 :=
    calc v.toNat * 2 ^ p.lo
      _ < 2 ^ n * 2 ^ p.lo := Nat.mul_lt_mul_of_pos_right v.isLt (Nat.two_pow_pos _)
      _ = 2 ^ (n + p.lo) := (Nat.pow_add ..).symm
      _ ≤ 2 ^ 32 := Nat.pow_le_pow_right Nat.two_pos (by omega)
  rw [place, BitVec.toNat_shiftLeft, BitVec.toNat_setWidth_of_le (by omega), Nat.shiftLeft_eq, Nat.mod_eq_of_lt hlt]

/-- Values that stand apart add up: putting one more into the word carries nothing. -/
theorem pack_toNat {xs : List FieldValue} (h : fieldsApart (xs.map FieldValue.slot) = true) :
    (pack xs).toNat = (xs.map FieldValue.weight).sum := by
  induction xs with
  | nil => rfl
  | cons x xs ih =>
    obtain ⟨hfit, hapart, hrest⟩ := valuesApart_cons.mp h
    have hdisj : place x.value x.pos &&& pack xs = 0#32 := by
      rw [← place_and_fieldMask, BitVec.and_assoc, BitVec.and_comm (fieldMask _ _), ← place_field,
        field_pack_of_apart hfit hrest hapart]
      simp [place]
    rw [pack_cons, ← BitVec.add_eq_or_of_and_eq_zero _ _ hdisj, BitVec.toNat_add_of_and_eq_zero hdisj,
      place_toNat _ hfit, ih hrest, List.map_cons, List.sum_cons, FieldValue.weight]

/-! ## A request as its field values (R240 to R244) -/

/-- The common header (30_encoding.md R122). -/
def hdrValues (l : Layout) (h : Hdr) : List FieldValue :=
  [⟨l.hdr.objPos, 4, h.objPos.bits⟩, ⟨l.hdr.giveBack, 1, h.giveBack⟩, ⟨l.hdr.capMismatch, 1, h.capMismatch⟩,
   ⟨l.hdr.usbCommCapable, 1, h.usbCommCapable⟩, ⟨l.hdr.noUsbSuspend, 1, h.noUsbSuspend⟩,
   ⟨l.hdr.unchunkedExtMsg, 1, h.unchunkedExtMsg⟩, ⟨l.hdr.eprCapable, 1, h.eprCapable⟩]

/-- The operating point (30_encoding.md R123 to R126). -/
def pointValues (l : Layout) : Rdo → List FieldValue
  | .fixed r => [⟨l.fixedRdo.first, 10, r.opCurrent⟩, ⟨l.fixedRdo.second, 10, r.maxOpCurrent⟩]
  | .battery r => [⟨l.batteryRdo.first, 10, r.opPower⟩, ⟨l.batteryRdo.second, 10, r.maxOpPower⟩]
  | .pps r => [⟨l.ppsRdo.first, 12, r.outVoltage⟩, ⟨l.ppsRdo.second, 7, r.opCurrent⟩]
  | .avs r => [⟨l.avsRdo.first, 12, r.outVoltage⟩, ⟨l.avsRdo.second, 7, r.opCurrent⟩]

/-- All the values of a request, in the order of `Layout.rdoFields`. -/
def rdoValues (l : Layout) (r : Rdo) : List FieldValue := hdrValues l (hdrOf r) ++ pointValues l r

theorem rdoValues_map_slot (l : Layout) (r : Rdo) : (rdoValues l r).map FieldValue.slot = l.rdoFields (kindOf r) := by
  cases r <;> rfl

theorem rdoValues_apart {l : Layout} (hl : l.wf = true) (r : Rdo) :
    fieldsApart ((rdoValues l r).map FieldValue.slot) = true := by
  rw [rdoValues_map_slot]
  exact wf_rdoFields hl _

theorem pack_hdrValues (l : Layout) (h : Hdr) : pack (hdrValues l h) = hdrBits l h := by
  simp [pack, hdrValues, hdrBits, BitVec.or_assoc]

/-- ENCODE_RDO packs the request's values. -/
theorem encodeRdo_eq_pack (l : Layout) (r : Rdo) : encodeRdo l r = pack (rdoValues l r) := by
  rw [rdoValues, pack_append, pack_hdrValues]
  cases r with
  | fixed r | battery r | pps r | avs r =>
    simp [pointValues, pack, encodeRdo, encodeFixedRdo, encodeBatteryRdo, encodePpsRdo, encodeAvsRdo, hdrOf]

/-- DECODE_RDO's header is the one whose values stand in the word; its nonzero position makes it one. -/
theorem readHdr_eq_some_iff {l : Layout} {w : Word} {h : Hdr} : readHdr l w = some h ↔ Holds w (hdrValues l h) := by
  constructor
  · intro hr
    obtain ⟨p, hp, rfl⟩ := Option.map_eq_some_iff.mp hr
    simp [Holds, hdrValues, objPosOf_eq_some hp]
  · intro hw
    simp only [Holds, hdrValues, List.forall_mem_cons] at hw
    obtain ⟨hpos, hgive, hcap, husb, hsus, hunc, hepr, -⟩ := hw
    rw [readHdr, hpos, objPosOf_bits, Option.map_some, hgive, hcap, husb, hsus, hunc, hepr]

theorem readPayload_eq_iff {l : Layout} {k : RdoKind} {h : Hdr} {w : Word} {r : Rdo} :
    readPayload l k h w = r ↔ kindOf r = k ∧ hdrOf r = h ∧ Holds w (pointValues l r) := by
  constructor
  · rintro rfl
    cases k <;> simp [readPayload, kindOf, hdrOf, Holds, pointValues]
  · rintro ⟨rfl, rfl, hw⟩
    cases r with
    | fixed r | battery r | pps r | avs r =>
      simp only [Holds, pointValues, List.forall_mem_cons] at hw
      simp [readPayload, kindOf, hdrOf, hw]

/-- DECODE_RDO answers with `r` exactly where `r` has the caller's kind and its values stand in the word. -/
theorem decodeRdo_eq_some_iff {l : Layout} {k : RdoKind} {w : Word} {r : Rdo} :
    decodeRdo l k w = some r ↔ kindOf r = k ∧ Holds w (rdoValues l r) := by
  simp only [decodeRdo, Option.map_eq_some_iff, readHdr_eq_some_iff, readPayload_eq_iff, rdoValues, holds_append]
  constructor
  · rintro ⟨h, hhdr, hk, rfl, hpoint⟩
    exact ⟨hk, hhdr, hpoint⟩
  · rintro ⟨hk, hhdr, hpoint⟩
    exact ⟨hdrOf r, hhdr, hk, rfl, hpoint⟩

/-- A word has no header exactly where its position field is 0. -/
theorem readHdr_eq_none_iff {l : Layout} {w : Word} :
    readHdr l w = none ↔ (field w l.hdr.objPos : BitVec 4) = 0#4 := by
  rw [readHdr, Option.map_eq_none_iff, objPosOf_eq_none]

theorem exists_readHdr {l : Layout} {w : Word} (h : (field w l.hdr.objPos : BitVec 4) ≠ 0#4) :
    ∃ hdr, readHdr l w = some hdr :=
  Option.ne_none_iff_exists'.mp (mt readHdr_eq_none_iff.mp h)

/-! ## Round trips (R247) -/

/-- An encoded request holds its values. -/
theorem holds_encodeRdo {l : Layout} (hl : l.wf = true) (r : Rdo) : Holds (encodeRdo l r) (rdoValues l r) := by
  rw [encodeRdo_eq_pack]
  exact holds_pack (rdoValues_apart hl r)

theorem decodeRdo_encodeRdo {l : Layout} (hl : l.wf = true) (r : Rdo) :
    decodeRdo l (kindOf r) (encodeRdo l r) = some r :=
  decodeRdo_eq_some_iff.mpr ⟨rfl, holds_encodeRdo hl r⟩

theorem reservedBits_eq (l : Layout) (k : RdoKind) : reservedBits l k = ~~~covered (l.rdoFields k) := rfl

/-- A word that is decoded and encoded again has lost its reserved bits and nothing else. -/
theorem encodeRdo_of_decodeRdo {l : Layout} {k : RdoKind} {w : Word} {r : Rdo} (h : decodeRdo l k w = some r) :
    encodeRdo l r = w &&& ~~~reservedBits l k := by
  obtain ⟨rfl, hw⟩ := decodeRdo_eq_some_iff.mp h
  rw [encodeRdo_eq_pack, hw.pack_eq, rdoValues_map_slot, reservedBits_eq, BitVec.not_not]

theorem and_not_eq_self {n : Nat} {w m : BitVec n} (h : w &&& m = 0#n) : w &&& ~~~m = w := by
  calc w &&& ~~~m
    _ = w &&& m ||| w &&& ~~~m := by rw [h, BitVec.zero_or]
    _ = w := by rw [← BitVec.and_or_distrib_left, BitVec.or_not_self, BitVec.and_allOnes]

/-! ## The default LAYOUT (log 7) -/

theorem defaultLayout_wf : defaultLayout.wf = true := by decide

/-- A field is the word shifted to it, where nothing needs a mask. -/
theorem field_eq_shift {n : Nat} (w : Word) (p : FieldPos) : (field w p : BitVec n) = (w >>> p.lo).setWidth n := by
  ext i hi
  simp [field]

/-- Under the default LAYOUT the position is the four top bits. -/
theorem objPos_eq_zero_iff (w : Word) :
    (field w defaultLayout.hdr.objPos : BitVec 4) = 0#4 ↔ w >>> 28 = 0#32 := by
  have hw := w.isLt
  rw [← BitVec.toNat_inj, ← BitVec.toNat_inj, field_toNat, BitVec.toNat_ushiftRight, Nat.shiftRight_eq_div_pow]
  change w.toNat / 2 ^ 28 % 2 ^ 4 = 0 ↔ w.toNat / 2 ^ 28 = 0
  omega

/-! ## The position of an encoded request (R245) -/

theorem objPos_encodeRdo {l : Layout} (hl : l.wf = true) (r : Rdo) :
    field (encodeRdo l r) l.hdr.objPos = (hdrOf r).objPos.bits :=
  holds_encodeRdo hl r ⟨l.hdr.objPos, 4, (hdrOf r).objPos.bits⟩ List.mem_cons_self

theorem objPos_encodeRdo_ne_zero {l : Layout} (hl : l.wf = true) (r : Rdo) :
    (field (encodeRdo l r) l.hdr.objPos : BitVec 4) ≠ 0#4 := by
  rw [objPos_encodeRdo hl]
  simpa using (hdrOf r).objPos.notZero

/-- The zero sentinel has position 0 under every layout. -/
theorem ne_zero_of_field_ne_zero {n : Nat} {w : Word} {p : FieldPos} (h : (field w p : BitVec n) ≠ 0#n) : w ≠ 0#32 := by
  rintro rfl
  exact h BitVec.extractLsb'_zero

/-! ## The word as a sum (R241 to R244) -/

theorem encodeRdo_toNat {l : Layout} (hl : l.wf = true) (r : Rdo) :
    (encodeRdo l r).toNat = ((rdoValues l r).map FieldValue.weight).sum := by
  rw [encodeRdo_eq_pack, pack_toNat (rdoValues_apart hl r)]

/-- The header's values, then the two of the operating point, each times its place value. -/
theorem encodeRdo_toNat_eq_add {l : Layout} (hl : l.wf = true) {r : Rdo} {x y : FieldValue}
    (hpoint : pointValues l r = [x, y]) :
    (encodeRdo l r).toNat =
      (hdrOf r).objPos.bits.toNat * 2 ^ l.hdr.objPos.lo + (hdrOf r).giveBack.toNat * 2 ^ l.hdr.giveBack.lo
      + (hdrOf r).capMismatch.toNat * 2 ^ l.hdr.capMismatch.lo
      + (hdrOf r).usbCommCapable.toNat * 2 ^ l.hdr.usbCommCapable.lo
      + (hdrOf r).noUsbSuspend.toNat * 2 ^ l.hdr.noUsbSuspend.lo
      + (hdrOf r).unchunkedExtMsg.toNat * 2 ^ l.hdr.unchunkedExtMsg.lo
      + (hdrOf r).eprCapable.toNat * 2 ^ l.hdr.eprCapable.lo
      + x.value.toNat * 2 ^ x.pos.lo + y.value.toNat * 2 ^ y.pos.lo := by
  rw [encodeRdo_toNat hl, rdoValues, hpoint]
  simp [hdrValues, FieldValue.weight, add_assoc]

/-! ## What DECODE_RDO does (R246) -/

section Returns

variable {k : RdoKind} {w : Word} {s : State}

theorem returnRdo_of_position_zero (h : (field w s.params.layout.hdr.objPos : BitVec 4) = 0#4) :
    returnRdo k w s = .next { s with result := some (.err (.invalidPosition 0)) } := by
  rw [returnRdo, decodeRdo, readHdr_eq_none_iff.mpr h]
  rfl

theorem returnRdo_of_readHdr {hdr : Hdr} (h : readHdr s.params.layout w = some hdr) :
    returnRdo k w s = .next { s with result := some (.ok (.rdo (readPayload s.params.layout k hdr w))) } := by
  rw [returnRdo, decodeRdo, h]
  rfl

end Returns

/-! ## What CHECK_RDO compares (R248, R249) -/

theorem checkRdo_fixed_fixed (p : FixedPdo) (r : FixedRdo) : checkRdo (.fixed p) (.fixed r) = true ↔
    r.opMilliAmp ≤ p.maxCurrentMilliAmp ∧ r.maxOpMilliAmp ≤ p.maxCurrentMilliAmp := by
  simp [checkRdo, matchesRdo, inBounds]

theorem checkRdo_variableSupply_fixed (p : VariablePdo) (r : FixedRdo) :
    checkRdo (.variableSupply p) (.fixed r) = true ↔
      r.opMilliAmp ≤ p.maxCurrentMilliAmp ∧ r.maxOpMilliAmp ≤ p.maxCurrentMilliAmp := by
  simp [checkRdo, matchesRdo, inBounds]

theorem checkRdo_battery_battery (p : BatteryPdo) (r : BatteryRdo) : checkRdo (.battery p) (.battery r) = true ↔
    r.opMilliWatt ≤ p.maxPowerMilliWatt ∧ r.maxOpMilliWatt ≤ p.maxPowerMilliWatt := by
  simp [checkRdo, matchesRdo, inBounds]

theorem checkRdo_pps_pps (p : PpsPdo) (r : PpsRdo) : checkRdo (.pps p) (.pps r) = true ↔
    p.minMilliVolt ≤ r.outMilliVolt ∧ r.outMilliVolt ≤ p.maxMilliVolt ∧ r.opMilliAmp ≤ p.maxCurrentMilliAmp := by
  simp [checkRdo, matchesRdo, inBounds, and_assoc]

theorem checkRdo_eprAvs_avs (p : AvsPdo) (r : AvsRdo) : checkRdo (.eprAvs p) (.avs r) = true ↔
    p.minMilliVolt ≤ r.outMilliVolt ∧ r.outMilliVolt ≤ p.maxMilliVolt := by
  simp [checkRdo, matchesRdo, inBounds]

theorem checkRdo_of_not_matches {p : Pdo} {r : Rdo} (h : matchesRdo p r = false) : ¬ checkRdo p r = true := by
  simp [checkRdo, h]

/-! ## The statements -/

/-- Settles O15: (a) by `decodeRdo_encodeRdo`, (b) and (c) by `encodeRdo_of_decodeRdo`. -/
theorem requestRoundTrips : Obligations.RequestRoundTrips := by
  refine ⟨fun l hl => ⟨decodeRdo_encodeRdo hl, fun k w hpos hres => ?_, fun k w r h => ?_⟩, defaultLayout_wf,
    fun w => (objPos_eq_zero_iff w).not, by decide, by decide, by decide, by decide⟩
  · obtain ⟨hdr, hhdr⟩ := exists_readHdr hpos
    have hdec : decodeRdo l k w = some (readPayload l k hdr w) := by rw [decodeRdo, hhdr, Option.map_some]
    exact ⟨_, hdec, by rw [encodeRdo_of_decodeRdo hdec, and_not_eq_self hres]⟩
  · rw [encodeRdo_of_decodeRdo h, BitVec.and_assoc, BitVec.not_and_self]
    exact BitVec.and_zero

/-- Settles O13, by `encodeRdo_toNat_eq_add` at the default positions; the lowest field stands at bit 0, so its place
value is 1. -/
theorem encodedRequestIsTheSumOfItsFields : Obligations.EncodedRequestIsTheSumOfItsFields := by
  intro s
  refine ⟨fun r => ⟨rfl, ?fixed⟩, fun r => ⟨rfl, ?battery⟩, fun r => ⟨rfl, ?pps⟩, fun r => ⟨rfl, ?avs⟩⟩
  case fixed =>
    rw [← Nat.mul_one r.maxOpCurrent.toNat]
    exact encodeRdo_toNat_eq_add defaultLayout_wf (r := .fixed r) rfl
  case battery =>
    rw [← Nat.mul_one r.maxOpPower.toNat]
    exact encodeRdo_toNat_eq_add defaultLayout_wf (r := .battery r) rfl
  case pps =>
    rw [← Nat.mul_one r.opCurrent.toNat]
    exact encodeRdo_toNat_eq_add defaultLayout_wf (r := .pps r) rfl
  case avs =>
    rw [← Nat.mul_one r.opCurrent.toNat]
    exact encodeRdo_toNat_eq_add defaultLayout_wf (r := .avs r) rfl

/-- Settles O14: the position read back is the request's own, which is not 0 by its type. -/
theorem encodedRequestIsNeverTheSentinel : Obligations.EncodedRequestIsNeverTheSentinel := by
  refine ⟨fun l r hl => ?_, fun r => ?_⟩
  · have hpos := objPos_encodeRdo_ne_zero hl r
    exact ⟨hpos, ne_zero_of_field_ne_zero hpos⟩
  · have hpos := objPos_encodeRdo_ne_zero defaultLayout_wf r
    exact ⟨mt (objPos_eq_zero_iff _).mpr hpos, ne_zero_of_field_ne_zero hpos⟩

/-- Settles O16: the header that is read holds the word's fields (`readHdr_eq_some_iff`), and each field of the default
LAYOUT is a shift and a mask. -/
theorem decodeRdoReadsFieldsOrRejectsPositionZero : Obligations.DecodeRdoReadsFieldsOrRejectsPositionZero := by
  refine ⟨?_, fun w => ⟨field_eq_shift _ _, field_eq_shift_and_mask rfl, field_eq_shift_and_mask rfl,
    field_eq_shift_and_mask rfl, field_eq_shift_and_mask rfl, field_eq_shift_and_mask rfl, field_eq_shift_and_mask rfl,
    field_eq_shift_and_mask rfl, field_eq_mask rfl rfl, field_eq_shift_and_mask rfl, field_eq_mask rfl rfl,
    field_eq_shift_and_mask rfl, field_eq_mask rfl rfl, field_eq_shift_and_mask rfl, field_eq_mask rfl rfl⟩⟩
  rintro w s l rfl
  refine ⟨fun hzero => ?_, fun hpos => ?_⟩
  · exact ⟨returnRdo_of_position_zero hzero, returnRdo_of_position_zero hzero, returnRdo_of_position_zero hzero,
      returnRdo_of_position_zero hzero⟩
  · obtain ⟨hdr, hhdr⟩ := exists_readHdr hpos
    have hread := readHdr_eq_some_iff.mp hhdr
    simp only [Holds, hdrValues, List.forall_mem_cons] at hread
    obtain ⟨hbits, hgive, hcap, husb, hsus, hunc, hepr, -⟩ := hread
    exact ⟨hdr, hbits.symm, hgive.symm, hcap.symm, husb.symm, hsus.symm, hunc.symm, hepr.symm,
      returnRdo_of_readHdr hhdr, returnRdo_of_readHdr hhdr, returnRdo_of_readHdr hhdr, returnRdo_of_readHdr hhdr⟩

/-- Settles O17, pair by pair; every other pair fails the match. -/
theorem checkRdoIsMatchAndBounds : Obligations.CheckRdoIsMatchAndBounds := by
  intro p r s
  refine ⟨checkRdo p r, rfl, ?_⟩
  cases p with
  | fixed p =>
    cases r with
    | fixed r => exact checkRdo_fixed_fixed p r
    | _ => exact iff_of_false (checkRdo_of_not_matches rfl) id
  | variableSupply p =>
    cases r with
    | fixed r => exact checkRdo_variableSupply_fixed p r
    | _ => exact iff_of_false (checkRdo_of_not_matches rfl) id
  | battery p =>
    cases r with
    | battery r => exact checkRdo_battery_battery p r
    | _ => exact iff_of_false (checkRdo_of_not_matches rfl) id
  | pps p =>
    cases r with
    | pps r => exact checkRdo_pps_pps p r
    | _ => exact iff_of_false (checkRdo_of_not_matches rfl) id
  | eprAvs p =>
    cases r with
    | avs r => exact checkRdo_eprAvs_avs p r
    | _ => exact iff_of_false (checkRdo_of_not_matches rfl) id
  | opaquePdo w => exact iff_of_false (checkRdo_of_not_matches (matchesRdo_opaquePdo w r)) id

/-- Settles O18: each product is the definition of the quantity. -/
theorem requestPhysicalValuesAreExactProducts : Obligations.RequestPhysicalValuesAreExactProducts :=
  ⟨fun _ => ⟨rfl, rfl⟩, fun _ => ⟨rfl, rfl⟩, fun _ => ⟨rfl, rfl⟩, fun _ => ⟨rfl, rfl⟩⟩

end Sys2Proof.Machine
end

section
/-! PROOFS of 42_pdo_rdo_registers.md: the two outcomes of a request write (`requestWrite_succeeded`,
`requestWrite_failed`) serve WRITE_RDO and RESET_RDO; WRITE_RDO and GET_PDO are each said once for a counted slot. -/

namespace Sys2Proof.Machine

/-! ## The request register (R285, R286; 20_memory.md R71, R80) -/

theorem bytesLe32_getElem? (w : Word) {j : Nat} (hj : j < 4) :
    (bytesLe32 w)[j]? = some (w.extractLsb' (8 * j) 8) := by
  interval_cases j <;> rfl

theorem Memory.read_writeBytes_bytesLe32 (m : Memory) (a : Nat) (w : Word) {j : Nat} (hj : j < 4) :
    Memory.read (Memory.writeBytes m a (bytesLe32 w)) (a + j) = some (w.extractLsb' (8 * j) 8) := by
  rw [Memory.read_writeBytes, if_pos ⟨Nat.le_add_right a j, Nat.add_lt_add_left hj a⟩, Nat.add_sub_cancel_left,
    bytesLe32_getElem? w hj]

section RequestWrite

variable {s : State}

/-- A successful request write: slot 0 and the register hold the word. -/
theorem requestWrite_succeeded (w : Word) (hok : s.draw.ok = true) :
    ∃ m : Memory, requestWrite w s = .next { s with
        block := { s.block with slot := s.block.slot.set 0 (some w) }
        device := m
        result := some (.ok .unit)
        tape := s.tape.tail
        drawn := s.drawn + 1
        bus := s.bus ++ [.write s.params.devAddr 0x30#8 (bytesLe32 w) true] } ∧
      (∀ j, j < 4 → Memory.read m (0x30 + j) = some (w.extractLsb' (8 * j) 8)) ∧
      (∀ a, a < 0x30 ∨ 0x34 ≤ a → Memory.read m a = Memory.read s.device a) := by
  refine ⟨Memory.writeBytes s.device 0x30 (bytesLe32 w), requestWrite_ok w s hok,
    fun j hj => Memory.read_writeBytes_bytesLe32 _ _ w hj, fun a ha => ?_⟩
  have hlen : (bytesLe32 w).length = 4 := rfl
  rw [Memory.read_writeBytes, if_neg (by omega)]

/-- A failed request write: slot 0 holds the old or the new word (92_eei_decisions.md D6) and the register is not
known (D3). -/
theorem requestWrite_failed (w : Word) (hok : s.draw.ok = false) :
    ∃ m : Memory, requestWrite w s = .next { s with
        block := { s.block with slot := s.block.slot.set 0 (if s.draw.sent then some w else s.block.slot[0]) }
        device := m
        result := some (.err .transportFailure)
        tape := s.tape.tail
        drawn := s.drawn + 1
        bus := s.bus ++ [.write s.params.devAddr 0x30#8 (bytesLe32 w) false] } ∧
      (∀ j, j < 4 → Memory.read m (0x30 + j) = none) ∧
      (∀ a, a < 0x30 ∨ 0x34 ≤ a → Memory.read m a = Memory.read s.device a) := by
  refine ⟨Memory.forgetBytes s.device 0x30 4, requestWrite_fail w s hok, fun j hj => ?_, fun a ha => ?_⟩
  · rw [Memory.read_forgetBytes, if_pos (by omega)]
  · rw [Memory.read_forgetBytes, if_neg (by omega)]

end RequestWrite

/-! ## The slot that an index selects (R283, R285) -/

/-- A slot read with a checked index holds what the unchecked read finds. -/
theorem Block.slot_eq_of_getElem? {b : Block} {i : Nat} {x : Option Word} (h : b.slot[i]? = some x) (hi : i < 8) :
    b.slot[i] = x := by
  obtain ⟨_, hx⟩ := Vector.getElem?_eq_some_iff.mp h
  exact hx

section Slots

variable {s : State} {n : Fin 8} {w : Word}

theorem execGetPdo_outside {i : Nat} (hi : i = 0 ∨ 7 < i) : execGetPdo i s = s.raise (.invalidPosition i) :=
  dif_pos hi

/-- GET_PDO of an index 1..7 goes by the count alone. -/
theorem execGetPdo_inside {i : Nat} (hpos : 1 ≤ i) (hi : i ≤ 7) :
    execGetPdo i s = needCell .pdoCount s.block.pdoCount fun n =>
      if n.val < i then s.raise (.invalidPosition i)
      else needCell (.slot ⟨i, by omega⟩) (s.block.slot[i]) fun w => s.ret (.pdo (decodePdo s.params.layout w)) :=
  dif_neg (by omega)

theorem execGetPdo_counted {i : Nat} (hcount : s.block.pdoCount = some n) (hpos : 1 ≤ i) (hle : i ≤ n.val)
    (hslot : s.block.slot[i]? = some (some w)) : execGetPdo i s = s.ret (.pdo (decodePdo s.params.layout w)) := by
  rw [execGetPdo_inside hpos (by omega), hcount, needCell_some, if_neg (by omega),
    Block.slot_eq_of_getElem? hslot, needCell_some]

variable {r : Rdo}

theorem execWriteRdo_uncounted (hcount : s.block.pdoCount = none) :
    execWriteRdo r s = .fault (.unwritten .pdoCount) := by
  rw [execWriteRdo, hcount, needCell_none]

theorem execWriteRdo_above_count (hcount : s.block.pdoCount = some n) (hlt : n.val < (hdrOf r).objPos.bits.toNat) :
    execWriteRdo r s = s.raise (.invalidPosition (hdrOf r).objPos.bits.toNat) := by
  rw [execWriteRdo, hcount, needCell_some]
  exact dif_pos hlt

/-- WRITE_RDO for a counted slot: the variant alone decides whether the request is sent. -/
theorem execWriteRdo_counted (hcount : s.block.pdoCount = some n) (hle : (hdrOf r).objPos.bits.toNat ≤ n.val)
    (hslot : s.block.slot[(hdrOf r).objPos.bits.toNat]? = some (some w)) :
    execWriteRdo r s = if matchesRdo (decodePdo s.params.layout w) r
      then requestWrite (encodeRdo s.params.layout r) s
      else s.raise (.variantMismatch (hdrOf r).objPos.bits.toNat) := by
  rw [execWriteRdo, hcount, needCell_some]
  dsimp only
  rw [dif_neg (by omega), Block.slot_eq_of_getElem? hslot, needCell_some]

theorem execWriteRdo_matching (hcount : s.block.pdoCount = some n) (hle : (hdrOf r).objPos.bits.toNat ≤ n.val)
    (hslot : s.block.slot[(hdrOf r).objPos.bits.toNat]? = some (some w))
    (hmatch : matchesRdo (decodePdo s.params.layout w) r = true) :
    execWriteRdo r s = requestWrite (encodeRdo s.params.layout r) s := by
  rw [execWriteRdo_counted hcount hle hslot, if_pos hmatch]

end Slots

/-! ## The refresh (R280, R281) -/

/-- The first configuration register is the mask at 0x1E (20_memory.md R83). -/
theorem configAddr_of_lt {a : Nat} (h : a < 0x1E) : configAddr a = false := by
  simp only [configAddr, Bool.or_eq_false_iff, Bool.and_eq_false_iff, beq_eq_false_iff_ne, decide_eq_false_iff_not]
  omega

/-- The table lies below the configuration registers, so its bytes are the drawn ones (20_memory.md R84). -/
theorem State.readBytes_table (s : State) : s.readBytes 0x00#8 28 (by decide) = s.draw.bytes := by
  ext j hj
  have hlow : (0x00#8).toNat + j < 0x1E := by
    rw [BitVec.toNat_zero]
    omega
  rw [State.readBytes_get, State.returned_drawn s _ (configAddr_of_lt hlow)]

/-- The clamp of the count as arithmetic (92_eei_decisions.md D8). -/
theorem countOf_eq_ofNat (raw : Byte) : countOf raw = Fin.ofNat 8 (min raw.toNat 7) :=
  Fin.ext (Nat.mod_eq_of_lt (by omega)).symm

/-- The state in which the count is read: a successful table read is on the record and nothing is committed. -/
def State.afterTable (s : State) : State :=
  s.afterDraw.log (.read s.params.devAddr 0x00#8 28 (some s.draw.bytes.toList))

@[simp] theorem State.afterTable_draw (s : State) : s.afterTable.draw = s.afterDraw.draw := rfl

section Refresh

variable {s : State}

theorem execRefreshPdos_table_fails (hok : s.draw.ok = false) : execRefreshPdos s =
    (s.afterDraw.log (.read s.params.devAddr 0x00#8 28 none)).raise .transportFailure :=
  readThen_fail _ _ _ _ s hok

/-- After a successful table read the count read decides. -/
theorem execRefreshPdos_table_read (hok : s.draw.ok = true) : execRefreshPdos s =
    readThen 0x1C#8 1 (by decide)
      (fun count t => (t.setBlock (t.block.setTable s.draw.bytes (countOf count[0]))).ret .unit) s.afterTable := by
  rw [execRefreshPdos, readThen_ok _ _ _ _ s hok, State.readBytes_table, State.afterTable]

theorem execRefreshPdos_count_fails (htable : s.draw.ok = true) (hcount : s.afterDraw.draw.ok = false) :
    execRefreshPdos s =
      (s.afterTable.afterDraw.log (.read s.params.devAddr 0x1C#8 1 none)).raise .transportFailure :=
  (execRefreshPdos_table_read htable).trans (readThen_fail _ _ _ _ s.afterTable hcount)

theorem execRefreshPdos_commits (htable : s.draw.ok = true) (hcount : s.afterDraw.draw.ok = true) :
    execRefreshPdos s =
      ((s.afterTable.afterDraw.log (.read s.params.devAddr 0x1C#8 1 (some [s.afterDraw.draw.bytes[0]]))).setBlock
        (s.block.setTable s.draw.bytes (countOf s.afterDraw.draw.bytes[0]))).ret .unit := by
  rw [execRefreshPdos_table_read htable, readThen_ok _ _ _ _ s.afterTable hcount,
    State.readBytes_one_drawn _ _ (by decide), State.afterTable_draw]
  rfl

end Refresh

/-! ## The statements -/

/-- Settles O21: an index outside 1..7, no count, an index above the count, a counted slot. -/
theorem getPdoDecodesAValidSlot : Obligations.GetPdoDecodesAValidSlot := by
  intro i s
  refine ⟨execGetPdo_outside, fun hpos hi hcount => ?uncounted, fun n hpos hi hcount hlt => ?above,
    fun n w hpos hcount => execGetPdo_counted hcount hpos⟩
  case uncounted => exact (execGetPdo_inside hpos hi).trans (by rw [hcount, needCell_none])
  case above =>
    refine (execGetPdo_inside hpos hi).trans ?_
    rw [hcount, needCell_some, if_pos hlt]
    rfl

/-- Settles O23: the three refusals, then the two outcomes of the request write. -/
theorem writeRdoChecksThenSendsTheEncodedRequest : Obligations.WriteRdoChecksThenSendsTheEncodedRequest := by
  rintro r s l rfl
  refine ⟨execWriteRdo_uncounted, fun _ => execWriteRdo_above_count,
    fun n w hcount hle hslot hmatch => ?mismatch, fun n w hcount hle hslot hmatch hok => ?succeeded,
    fun n w hcount hle hslot hmatch hok => ?failed⟩
  case mismatch =>
    refine (execWriteRdo_counted hcount hle hslot).trans ?_
    rw [hmatch]
    rfl
  case succeeded =>
    obtain ⟨m, hrun, hbytes, hframe⟩ := requestWrite_succeeded (encodeRdo s.params.layout r) hok
    exact ⟨m, (execWriteRdo_matching hcount hle hslot hmatch).trans hrun, hbytes, hframe⟩
  case failed =>
    obtain ⟨m, hrun, hbytes, hframe⟩ := requestWrite_failed (encodeRdo s.params.layout r) hok
    exact ⟨m, _, (execWriteRdo_matching hcount hle hslot hmatch).trans hrun, rfl, hbytes, hframe⟩

/-- Settles O19: the two reads in their order, the table's bytes and the clamped count as they were drawn. -/
theorem refreshCommitsTableAndCountTogether : Obligations.RefreshCommitsTableAndCountTogether := by
  intro s
  refine ⟨fun htable hcount => ?commits, execRefreshPdos_table_fails, fun htable hcount => ?countFails⟩
  case commits =>
    refine (execRefreshPdos_commits htable hcount).trans ?_
    rw [List.append_cons s.bus, ← countOf_eq_ofNat]
    rfl
  case countFails =>
    refine (execRefreshPdos_count_fails htable hcount).trans ?_
    rw [List.append_cons s.bus]
    rfl

/-- Settles O20: the two values of the cell; the bound is the count's type. -/
theorem getPdoCntReturnsTheStoredCount : Obligations.GetPdoCntReturnsTheStoredCount := by
  refine fun s => ⟨fun n hcount => ⟨?_, Nat.le_of_lt_succ n.isLt⟩, fun hcount => ?_⟩
  · rw [exec, execGetPdoCnt, hcount, needCell_some]
    rfl
  · rw [exec, execGetPdoCnt, hcount, needCell_none]

/-- Settles O22: the two values of slot 0. -/
theorem getLastRdoReturnsSlotZero : Obligations.GetLastRdoReturnsSlotZero := by
  refine fun s => ⟨fun w hslot => ?_, fun hslot => ?_⟩
  · rw [exec, execGetLastRdo, hslot, needCell_some]
    rfl
  · rw [exec, execGetLastRdo, hslot, needCell_none]

/-- Settles O24: the two outcomes of the request write for the word 0, each byte of which is 0. -/
theorem resetRdoWritesTheZeroSentinel : Obligations.ResetRdoWritesTheZeroSentinel := by
  refine fun s => ⟨fun hok => ?_, fun hok => requestWrite_failed 0#32 hok⟩
  obtain ⟨m, hrun, hbytes, hframe⟩ := requestWrite_succeeded 0#32 hok
  refine ⟨m, hrun, fun j hj => ?_, hframe⟩
  rw [hbytes j hj, BitVec.extractLsb'_zero]

end Sys2Proof.Machine
end

section
/-! PROOFS of 43_status_interrupt.md: the outcomes of the three one-byte shapes (`snapshotRead_drawn_ok`,
`readThen_ret_config_ok`, `configWrite_byte_succeeded` and its failure), and a status byte as its bits put together. -/

namespace Sys2Proof.Machine

/-! ## One byte over the transport (20_memory.md R80, R83, R84) -/

section OneByte

variable {a : RegAddr} {s : State}

/-- A snapshot of a device-owned register takes the drawn byte (R84). -/
theorem snapshotRead_drawn_ok {get : Block → Option Byte} {set : Block → Option Byte → Block} {k : Byte → Value}
    (ha : configAddr a.toNat = false) (hok : s.draw.ok = true) :
    snapshotRead a get set k s =
      ((s.afterDraw.log (.read s.params.devAddr a 1 (some [s.draw.bytes[0]]))).setBlock
        (set s.block (some s.draw.bytes[0]))).ret (k s.draw.bytes[0]) := by
  rw [snapshotRead_ok a get set k s hok, State.readBytes_one_drawn s a ha]
  rfl

/-- A configuration register answers with what is known of it, else with the drawn byte (R83). -/
theorem readThen_ret_config_ok {k : Byte → Value} (ha : configAddr a.toNat = true) (hok : s.draw.ok = true) :
    readThen a 1 (by decide) (fun b t => t.ret (k b[0])) s =
      (s.afterDraw.log (.read s.params.devAddr a 1
        (some [(Memory.read s.device a.toNat).getD s.draw.bytes[0]]))).ret
          (k ((Memory.read s.device a.toNat).getD s.draw.bytes[0])) := by
  rw [readThen_ok a 1 _ _ s hok, State.readBytes_one_config s a ha]
  rfl

/-- A successful write of a one-byte register: the device holds the byte there and what it held elsewhere (R83). -/
theorem configWrite_byte_succeeded (b : Byte) (hok : s.draw.ok = true) :
    ∃ m : Memory, configWrite a [b] s = .next { s with
        device := m
        result := some (.ok .unit)
        tape := s.tape.tail
        drawn := s.drawn + 1
        bus := s.bus ++ [.write s.params.devAddr a [b] true] } ∧
      ∀ x, Memory.read m x = if x = a.toNat then some b else Memory.read s.device x :=
  ⟨Memory.write s.device a.toNat b, configWrite_ok a [b] s hok, fun x => Memory.read_write s.device a.toNat x b⟩

/-- A failed write of a one-byte register: its value is not known (92_eei_decisions.md D3). -/
theorem configWrite_byte_failed (b : Byte) (hok : s.draw.ok = false) :
    ∃ m : Memory, configWrite a [b] s = .next { s with
        device := m
        result := some (.err .transportFailure)
        tape := s.tape.tail
        drawn := s.drawn + 1
        bus := s.bus ++ [.write s.params.devAddr a [b] false] } ∧
      ∀ x, Memory.read m x = if x = a.toNat then none else Memory.read s.device x :=
  ⟨Memory.forget s.device a.toNat, configWrite_fail a [b] s hok, fun x => Memory.read_forget s.device a.toNat x⟩

end OneByte

/-! ## The bits of a byte (R322, 30_encoding.md R132) -/

theorem bitOf_eq_shift (b : Byte) (i : Nat) : bitOf b i = (b >>> i).setWidth 1 :=
  BitVec.setWidth_ushiftRight_eq_extractLsb.symm

/-- The `n` bits above bit `i`, followed by bit `i`, are the `n + 1` bits from `i` up. -/
theorem extractLsb'_append_bitOf (b : Byte) (i n : Nat) :
    b.extractLsb' (i + 1) n ++ bitOf b i = b.extractLsb' i (n + 1) :=
  BitVec.extractLsb'_append_extractLsb'_eq_extractLsb' rfl

/-- The eight bits from the top down are the byte. -/
theorem bitOf_append_bits (b : Byte) :
    bitOf b 7 ++ bitOf b 6 ++ bitOf b 5 ++ bitOf b 4 ++ bitOf b 3 ++ bitOf b 2 ++ bitOf b 1 ++ bitOf b 0 = b := by
  have htop : bitOf b 7 = b.extractLsb' 7 1 := rfl
  rw [htop, extractLsb'_append_bitOf b 6, extractLsb'_append_bitOf b 5, extractLsb'_append_bitOf b 4,
    extractLsb'_append_bitOf b 3, extractLsb'_append_bitOf b 2, extractLsb'_append_bitOf b 1,
    extractLsb'_append_bitOf b 0]
  exact BitVec.extractLsb'_eq_self

/-! ## The statements -/

/-- Settles O26: a read at 0x1D, which is no configuration register, so its byte is the drawn one. -/
theorem readStatusCopiesTheByteIntoTheSnapshot : Obligations.ReadStatusCopiesTheByteIntoTheSnapshot :=
  fun s => ⟨fun hok => snapshotRead_drawn_ok (by decide) hok,
    fun hok => snapshotRead_fail 0x1D#8 Block.statusSnap Block.setStatus Value.byte s hok⟩

/-- Settles O27: the two values of the cell. -/
theorem getStatusReturnsTheSnapshot : Obligations.GetStatusReturnsTheSnapshot := by
  refine fun s => ⟨fun b hsnap => ?_, fun hsnap => ?_⟩
  · rw [exec, execGetStatus, hsnap, needCell_some]
    rfl
  · rw [exec, execGetStatus, hsnap, needCell_none]

/-- Settles O28: each flag is one bit (`bitOf_eq_shift`), and the bits make up the byte (`bitOf_append_bits`). -/
theorem decodeStatusSplitsTheByte : Obligations.DecodeStatusSplitsTheByte := fun b _ =>
  ⟨statusFlags b, rfl, bitOf_eq_shift b 7, bitOf_eq_shift b 6, bitOf_eq_shift b 5, bitOf_eq_shift b 4,
    bitOf_eq_shift b 3, bitOf_eq_shift b 2, bitOf_eq_shift b 1, bitOf_eq_shift b 0, bitOf_append_bits b⟩

/-- Settles O29: the two outcomes of a one-byte register write, at 0x1E. -/
theorem setMaskWritesTheByteAsGiven : Obligations.SetMaskWritesTheByteAsGiven :=
  fun b _ => ⟨configWrite_byte_succeeded b, configWrite_byte_failed b⟩

/-- Settles O30: a read at 0x1E, which is a configuration register, so its byte is the known one where there is one. -/
theorem getMaskReturnsTheDeviceByte : Obligations.GetMaskReturnsTheDeviceByte :=
  fun s => ⟨fun hok => readThen_ret_config_ok (by decide) hok, fun hok => readThen_fail 0x1E#8 1 _ _ s hok⟩

/-- Settles O31: the level is the draw's, and the draw is all that is consumed (`State.intPin_eq`). -/
theorem pollIntReturnsTheDrawnLevel : Obligations.PollIntReturnsTheDrawnLevel := by
  intro s
  rw [exec, execPollInt, State.intPin_eq]
  rfl

end Sys2Proof.Machine
end

section
/-! PROOFS of 44_measure_threshold.md: a threshold or NTC value is a bounded register write (`boundedWrite`) and is read
back as it was written (`set_then_get`); the conversions of R365 as arithmetic. -/

namespace Sys2Proof.Machine

/-! ## Conversions as arithmetic (R352, R356, R358, R362) -/

/-- Two's complement by the byte's unsigned value (log 11). -/
theorem signedByte_eq (b : Byte) :
    signedByte b = if b.toNat < 128 then (b.toNat : Int) else (b.toNat : Int) - 256 := by
  unfold signedByte
  rw [BitVec.toInt_eq_toNat_cond]
  split_ifs <;> omega

theorem signedByte_bounds (b : Byte) : -128 ≤ signedByte b ∧ signedByte b ≤ 127 :=
  ⟨BitVec.le_toInt b, Int.le_of_lt_add_one BitVec.toInt_lt⟩

theorem byte_toNat {n : Nat} (h : n ≤ 255) : (BitVec.ofNat 8 n).toNat = n :=
  Nat.mod_eq_of_lt (by omega)

/-- Up to 12799 mA the fiftieths fit a byte. -/
theorem ocpRaw_toNat {mA : Nat} (h : mA ≤ 12799) : (ocpRaw mA).toNat = mA / 50 :=
  byte_toNat (by omega)

/-- What is read back from the stored fiftieths (R364). -/
theorem ocpOf_ocpRaw {mA : Nat} (h : mA ≤ 12799) : ocpOf (ocpRaw mA) = mA - mA % 50 := by
  rw [ocpOf, ocpRaw_toNat h]
  omega

/-- The byte of a resistance that is sent first (20_memory.md R73). -/
def ntcLow (ohm : Nat) : Byte := BitVec.ofNat 8 ohm

/-- The byte of a resistance that is sent second (20_memory.md R73). -/
def ntcHigh (ohm : Nat) : Byte := BitVec.ofNat 8 (ohm / 256)

theorem bytesLe16_ofNat (ohm : Nat) : bytesLe16 (BitVec.ofNat 16 ohm) = [ntcLow ohm, ntcHigh ohm] := by
  have hlow : (BitVec.ofNat 16 ohm).extractLsb' 0 8 = ntcLow ohm := by
    apply BitVec.eq_of_toNat_eq
    simp [ntcLow]
  have hhigh : (BitVec.ofNat 16 ohm).extractLsb' 8 8 = ntcHigh ohm := by
    apply BitVec.eq_of_toNat_eq
    simp only [ntcHigh, BitVec.extractLsb'_toNat, BitVec.toNat_ofNat, Nat.shiftRight_eq_div_pow]
    omega
  rw [bytesLe16, hlow, hhigh]

theorem ntcLow_toNat (ohm : Nat) : (ntcLow ohm).toNat = ohm % 256 := rfl

theorem ntcHigh_toNat {ohm : Nat} (h : ohm ≤ 65535) : (ntcHigh ohm).toNat = ohm / 256 :=
  byte_toNat (by omega)

/-- Little-endian: the second byte counts 256 (20_memory.md R73). -/
theorem le16_toNat (lo hi : Byte) : (le16 lo hi).toNat = lo.toNat + 256 * hi.toNat := by
  rw [le16, BitVec.toNat_append, ← Nat.shiftLeft_add_eq_or_of_lt lo.isLt, Nat.shiftLeft_eq]
  omega

theorem le16_ntcBytes {ohm : Nat} (h : ohm ≤ 65535) : (le16 (ntcLow ohm) (ntcHigh ohm)).toNat = ohm := by
  rw [le16_toNat, ntcLow_toNat, ntcHigh_toNat h]
  omega

/-! ## The NTC points (R362) -/

/-- Each point has its register, and both bytes of it are configuration bytes (20_memory.md R83). -/
theorem ntcAddr_of_point : ∀ p ∈ [(25, 0x28), (50, 0x2A), (75, 0x2C), (100, 0x2E)],
    ntcAddr p.1 = some (BitVec.ofNat 8 p.2) ∧ (BitVec.ofNat 8 p.2).toNat = p.2 ∧
      ∀ j < 2, configAddr (p.2 + j) = true := by
  decide

theorem ntcAddr_of_no_point {k : Nat} (h : k ≠ 25 ∧ k ≠ 50 ∧ k ≠ 75 ∧ k ≠ 100) : ntcAddr k = none := by
  obtain ⟨h25, h50, h75, h100⟩ := h
  rw [ntcAddr, if_neg h25, if_neg h50, if_neg h75, if_neg h100]

/-! ## Writes that are refused above a limit (R356, R358, R360, R362; 92_eei_decisions.md D16) -/

/-- A register write whose argument is refused above `limit`, before any transaction. -/
def boundedWrite (limit x : Nat) (a : RegAddr) (bytes : List Byte) (s : State) : Host.Outcome State Fault Refusal :=
  if limit < x then s.raise (.argumentOutOfRange x) else configWrite a bytes s

theorem exec_setOcp (mA : Nat) (s : State) : exec (.setOcp mA) s = boundedWrite 12799 mA 0x23#8 [ocpRaw mA] s := rfl

theorem exec_setOtp (c : Nat) (s : State) : exec (.setOtp c) s = boundedWrite 255 c 0x24#8 [BitVec.ofNat 8 c] s := rfl

theorem exec_setDr (c : Nat) (s : State) : exec (.setDr c) s = boundedWrite 255 c 0x25#8 [BitVec.ofNat 8 c] s := rfl

theorem exec_setNtc {k : Nat} {a : RegAddr} (ha : ntcAddr k = some a) (ohm : Nat) (s : State) :
    exec (.setNtc k ohm) s = boundedWrite 65535 ohm a [ntcLow ohm, ntcHigh ohm] s := by
  rw [exec, execSetNtc, ha, bytesLe16_ofNat]
  rfl

theorem exec_setNtc_no_point {k : Nat} (hk : ntcAddr k = none) (ohm : Nat) (s : State) :
    exec (.setNtc k ohm) s = s.raise (.argumentOutOfRange k) := by
  rw [exec, execSetNtc, hk]

/-- The two thresholds differ in their register alone (R358, R360). -/
theorem exec_setThreshold {op : Instr} {reg c : Nat}
    (h : (op, reg) = (.setOtp c, 0x24) ∨ (op, reg) = (.setDr c, 0x25)) :
    ∃ a : RegAddr, a.toNat = reg ∧ ∀ s, exec op s = boundedWrite 255 c a [BitVec.ofNat 8 c] s := by
  rcases h with h | h
  · cases h
    exact ⟨0x24#8, rfl, exec_setOtp c⟩
  · cases h
    exact ⟨0x25#8, rfl, exec_setDr c⟩

section BoundedWrite

variable {limit x : Nat} {a : RegAddr} {bytes : List Byte} {s t : State}

theorem boundedWrite_refused (h : limit < x) :
    boundedWrite limit x a bytes s = .next { s with result := some (.err (.argumentOutOfRange x)) } :=
  if_pos h

theorem boundedWrite_sent (h : x ≤ limit) : boundedWrite limit x a bytes s = configWrite a bytes s :=
  if_neg (Nat.not_lt.mpr h)

/-- Only a write that succeeds answers unit: the refusal and the failure are errors. -/
theorem configWrite_answers_unit (h : configWrite a bytes s = .next t) (hunit : t.result = some (.ok .unit)) :
    t.device = Memory.writeBytes s.device a.toNat bytes := by
  cases hok : s.draw.ok with
  | true =>
    rw [configWrite_ok a bytes s hok, State.ret_eq] at h
    cases h
    rfl
  | false =>
    rw [configWrite_fail a bytes s hok, State.raise_eq] at h
    cases h
    cases hunit

theorem boundedWrite_answers_unit (h : boundedWrite limit x a bytes s = .next t)
    (hunit : t.result = some (.ok .unit)) :
    x ≤ limit ∧ t.device = Memory.writeBytes s.device a.toNat bytes := by
  rcases Nat.lt_or_ge limit x with habove | hle
  · rw [boundedWrite_refused habove] at h
    cases h
    cases hunit
  · rw [boundedWrite_sent hle] at h
    exact ⟨hle, configWrite_answers_unit h hunit⟩

/-- All that a bounded write of one byte does: it is refused, or sent and answered by the device (R356, R358, R360). -/
theorem boundedWrite_byte_outcomes {b : Byte} {n : Nat} (hb : x ≤ limit → b.toNat = n) :
    (limit < x →
      boundedWrite limit x a [b] s = .next { s with result := some (.err (.argumentOutOfRange x)) }) ∧
    (x ≤ limit → s.draw.ok = true →
      ∃ (m : Memory) (raw : Byte), raw.toNat = n ∧
        boundedWrite limit x a [b] s = .next { s with
          device := m
          result := some (.ok .unit)
          tape := s.tape.tail
          drawn := s.drawn + 1
          bus := s.bus ++ [.write s.params.devAddr a [raw] true] } ∧
        ∀ r, Memory.read m r = if r = a.toNat then some raw else Memory.read s.device r) ∧
    (x ≤ limit → s.draw.ok = false →
      ∃ (m : Memory) (raw : Byte), raw.toNat = n ∧
        boundedWrite limit x a [b] s = .next { s with
          device := m
          result := some (.err .transportFailure)
          tape := s.tape.tail
          drawn := s.drawn + 1
          bus := s.bus ++ [.write s.params.devAddr a [raw] false] } ∧
        ∀ r, Memory.read m r = if r = a.toNat then none else Memory.read s.device r) := by
  refine ⟨boundedWrite_refused, fun hle hok => ?succeeded, fun hle hok => ?failed⟩
  case succeeded =>
    obtain ⟨m, hrun, hread⟩ := configWrite_byte_succeeded (a := a) b hok
    exact ⟨m, b, hb hle, (boundedWrite_sent hle).trans hrun, hread⟩
  case failed =>
    obtain ⟨m, hrun, hread⟩ := configWrite_byte_failed (a := a) b hok
    exact ⟨m, b, hb hle, (boundedWrite_sent hle).trans hrun, hread⟩

/-- A successful write of a two-byte register: the first byte at its address, the second at the next (R362). -/
theorem configWrite_pair_succeeded (lo hi : Byte) (hok : s.draw.ok = true) :
    ∃ m : Memory, configWrite a [lo, hi] s = .next { s with
        device := m
        result := some (.ok .unit)
        tape := s.tape.tail
        drawn := s.drawn + 1
        bus := s.bus ++ [.write s.params.devAddr a [lo, hi] true] } ∧
      ∀ x, Memory.read m x
        = if x = a.toNat then some lo else if x = a.toNat + 1 then some hi else Memory.read s.device x := by
  refine ⟨Memory.write (Memory.write s.device a.toNat lo) (a.toNat + 1) hi, configWrite_ok a _ s hok, fun x => ?_⟩
  rw [Memory.read_write, Memory.read_write]
  by_cases hfirst : x = a.toNat
  · rw [if_neg (by omega), if_pos hfirst, if_pos hfirst]
  · rw [if_neg hfirst, if_neg hfirst]

/-- A failed write of a two-byte register: neither byte is known (92_eei_decisions.md D3). -/
theorem configWrite_pair_failed (lo hi : Byte) (hok : s.draw.ok = false) :
    ∃ m : Memory, configWrite a [lo, hi] s = .next { s with
        device := m
        result := some (.err .transportFailure)
        tape := s.tape.tail
        drawn := s.drawn + 1
        bus := s.bus ++ [.write s.params.devAddr a [lo, hi] false] } ∧
      ∀ x, Memory.read m x = if x = a.toNat ∨ x = a.toNat + 1 then none else Memory.read s.device x := by
  refine ⟨Memory.forgetBytes s.device a.toNat 2, configWrite_fail a _ s hok, fun x => ?_⟩
  rw [Memory.read_forgetBytes]
  exact if_congr (by omega) rfl rfl

end BoundedWrite

/-! ## Reads of a configuration register (R357, R359, R361, R363) -/

theorem exec_getNtc {k : Nat} {a : RegAddr} (ha : ntcAddr k = some a) (s : State) :
    exec (.getNtc k) s = readThen a 2 (by decide) (fun b t => t.ret (.ohm (le16 b[0] b[1]).toNat)) s := by
  rw [exec, execGetNtc, ha]

theorem exec_getNtc_no_point {k : Nat} (hk : ntcAddr k = none) (s : State) :
    exec (.getNtc k) s = s.raise (.argumentOutOfRange k) := by
  rw [exec, execGetNtc, hk]

theorem exec_getThreshold {op : Instr} {reg : Nat} (h : (op, reg) = (.getOtp, 0x24) ∨ (op, reg) = (.getDr, 0x25)) :
    ∃ a : RegAddr, a.toNat = reg ∧ configAddr a.toNat = true ∧ ∀ s, exec op s = getDegrees a s := by
  rcases h with h | h
  · cases h
    exact ⟨0x24#8, rfl, rfl, fun _ => rfl⟩
  · cases h
    exact ⟨0x25#8, rfl, rfl, fun _ => rfl⟩

section Reads

variable {a : RegAddr} {s t : State}

/-- An NTC register answers with what is known of its two bytes, else with the drawn ones (20_memory.md R83). -/
theorem readThen_ret_config_pair_ok {k : Byte → Byte → Value} (ha : configAddr a.toNat = true)
    (ha' : configAddr (a.toNat + 1) = true) (hok : s.draw.ok = true) :
    readThen a 2 (by decide) (fun b t => t.ret (k b[0] b[1])) s =
      (s.afterDraw.log (.read s.params.devAddr a 2
        (some [(Memory.read s.device a.toNat).getD s.draw.bytes[0],
          (Memory.read s.device (a.toNat + 1)).getD s.draw.bytes[1]]))).ret
          (k ((Memory.read s.device a.toNat).getD s.draw.bytes[0])
            ((Memory.read s.device (a.toNat + 1)).getD s.draw.bytes[1])) := by
  rw [readThen_ok a 2 _ _ s hok, State.readBytes_two_config s a ha ha']
  rfl

/-- A read that answers a value has succeeded, and the value is that of the bytes it returned. -/
theorem readThen_answers {n : Nat} {hn : n ≤ 28} {f : Vector Byte n → Value} {y : Value}
    (h : readThen a n hn (fun b t => t.ret (f b)) s = .next t) (hy : t.result = some (.ok y)) :
    y = f (s.readBytes a n hn) := by
  cases hok : s.draw.ok with
  | true =>
    rw [readThen_ok a n hn _ s hok, State.ret_eq] at h
    cases h
    cases hy
    rfl
  | false =>
    rw [readThen_fail a n hn _ s hok, State.raise_eq] at h
    cases h
    cases hy

/-- A register that is known whole is read as it is known (20_memory.md R83). -/
theorem State.readBytes_known {n : Nat} {hn : n ≤ 28} {v : Vector Byte n}
    (ha : ∀ j < n, configAddr (a.toNat + j) = true)
    (hv : ∀ (j : Nat) (hj : j < n), Memory.read s.device (a.toNat + j) = some v[j]) : s.readBytes a n hn = v := by
  ext j hj
  rw [State.readBytes_get, State.returned_config s _ (ha j hj), hv j hj, Option.getD_some]

end Reads

/-! ## What was set is got back (R364) -/

/-- A byte that no operation of a run writes reads after the run as before it (20_memory.md R83). -/
theorem runOps_read_eq {ops : List Instr} {s t : State} {a : Nat} (ha : ∀ i ∈ ops, writesTo i a = false)
    (h : runOps ops s = .next t) : Memory.read t.device a = Memory.read s.device a := by
  induction ops generalizing s with
  | nil =>
    cases h
    rfl
  | cons i rest ih =>
    obtain ⟨hi, hrest⟩ := List.forall_mem_cons.mp ha
    rw [runOps] at h
    split at h
    · next u hexec => rw [ih hrest h, deviceBytesOutsideTheRegisterAreKept i s u a hexec hi]
    · cases h
    · cases h

theorem Memory.read_writeBytes_toList {n : Nat} (v : Vector Byte n) (m : Memory) (a : Nat) {j : Nat} (hj : j < n) :
    Memory.read (Memory.writeBytes m a v.toList) (a + j) = some v[j] := by
  rw [Memory.read_writeBytes, if_pos (by simp [hj]), Nat.add_sub_cancel_left]
  simp [hj]

/-- A bounded write that answered unit, then operations that do not write the register, then a read of it that answers:
the argument was within its limit, and the answer is that of the bytes written. -/
theorem set_then_get {n limit x reg : Nat} {hn : n ≤ 28} {a : RegAddr} {v : Vector Byte n} {f : Vector Byte n → Value}
    {between : List Instr} {s t u w : State} {y : Value} (hreg : a.toNat = reg)
    (ha : ∀ j < n, configAddr (reg + j) = true) (hset : boundedWrite limit x a v.toList s = .next t)
    (hunit : t.result = some (.ok .unit)) (hkept : ∀ i ∈ between, ∀ j < n, writesTo i (reg + j) = false)
    (hrun : runOps between t = .next u) (hget : readThen a n hn (fun b t => t.ret (f b)) u = .next w)
    (hy : w.result = some (.ok y)) : x ≤ limit ∧ y = f v := by
  subst hreg
  obtain ⟨hle, hdevice⟩ := boundedWrite_answers_unit hset hunit
  have hknown (j : Nat) (hj : j < n) : Memory.read u.device (a.toNat + j) = some v[j] := by
    rw [runOps_read_eq (fun i hi => hkept i hi j hj) hrun, hdevice, Memory.read_writeBytes_toList v _ _ hj]
  rw [readThen_answers hget hy, State.readBytes_known ha hknown]
  exact ⟨hle, rfl⟩

/-- The same for a register of one byte. -/
theorem set_then_get_byte {limit x : Nat} {a : RegAddr} {b : Byte} (k : Byte → Value)
    {between : List Instr} {s t u w : State} {y : Value} (ha : configAddr a.toNat = true)
    (hset : boundedWrite limit x a [b] s = .next t) (hunit : t.result = some (.ok .unit))
    (hkept : ∀ i ∈ between, writesTo i a.toNat = false) (hrun : runOps between t = .next u)
    (hget : readThen a 1 (by decide) (fun b t => t.ret (k b[0])) u = .next w) (hy : w.result = some (.ok y)) :
    x ≤ limit ∧ y = k b :=
  set_then_get (v := #v[b]) rfl (by simpa using ha) hset hunit (by simpa using hkept) hrun hget hy

theorem setOcp_then_getOcp {x : Nat} {between : List Instr} {s t u v : State} {y : Value}
    (hset : exec (.setOcp x) s = .next t) (hunit : t.result = some (.ok .unit))
    (hkept : ∀ i ∈ between, writesTo i 0x23 = false) (hrun : runOps between t = .next u)
    (hget : exec .getOcp u = .next v) (hy : v.result = some (.ok y)) : y = .milliAmp (x - x % 50) := by
  rw [exec_setOcp] at hset
  obtain ⟨hle, rfl⟩ :=
    set_then_get_byte (a := 0x23#8) (fun b => .milliAmp (ocpOf b)) (by decide) hset hunit hkept hrun hget hy
  rw [ocpOf_ocpRaw hle]

/-- Whatever byte the device returns, GET_OCP gives a multiple of 50 (R357). -/
theorem getOcp_mod_fifty {s t : State} {y : Nat} (h : exec .getOcp s = .next t)
    (hy : t.result = some (.ok (.milliAmp y))) : y % 50 = 0 := by
  cases readThen_answers (f := fun b => .milliAmp (ocpOf b[0])) h hy
  exact Nat.mul_mod_left _ 50

/-- A temperature threshold is got back as it was set: the scale is 1 (R359, R361). -/
theorem setDegrees_then_getDegrees {a : RegAddr} {x : Nat} {between : List Instr} {s t u v : State} {y : Value}
    (ha : configAddr a.toNat = true) (hset : boundedWrite 255 x a [BitVec.ofNat 8 x] s = .next t)
    (hunit : t.result = some (.ok .unit)) (hkept : ∀ i ∈ between, writesTo i a.toNat = false)
    (hrun : runOps between t = .next u) (hget : getDegrees a u = .next v) (hy : v.result = some (.ok y)) :
    y = .degrees x := by
  obtain ⟨hle, rfl⟩ := set_then_get_byte (fun b => .degrees (degreesOf b)) ha hset hunit hkept hrun hget hy
  rw [degreesOf, byte_toNat hle]

theorem setNtc_then_getNtc {k x a : Nat} {between : List Instr} {s t u v : State} {y : Value}
    (hpoint : (k, a) ∈ [(25, 0x28), (50, 0x2A), (75, 0x2C), (100, 0x2E)])
    (hset : exec (.setNtc k x) s = .next t) (hunit : t.result = some (.ok .unit))
    (hkept : ∀ i ∈ between, writesTo i a = false ∧ writesTo i (a + 1) = false) (hrun : runOps between t = .next u)
    (hget : exec (.getNtc k) u = .next v) (hy : v.result = some (.ok y)) : y = .ohm x := by
  obtain ⟨haddr, hreg, hconfig⟩ := ntcAddr_of_point (k, a) hpoint
  have hkept' : ∀ i ∈ between, ∀ j < 2, writesTo i (a + j) = false := by
    intro i hi j hj
    obtain ⟨hlow, hhigh⟩ := hkept i hi
    interval_cases j
    · exact hlow
    · exact hhigh
  rw [exec_setNtc haddr] at hset
  rw [exec_getNtc haddr] at hget
  obtain ⟨hle, rfl⟩ := set_then_get (v := #v[ntcLow x, ntcHigh x]) (f := fun b => .ohm (le16 b[0] b[1]).toNat)
    hreg hconfig hset hunit hkept' hrun hget hy
  exact congrArg Value.ohm (le16_ntcBytes hle)

/-! ## The statements -/

/-- Settles O42: each clause is `set_then_get` for its register; an amount that GET_OCP gave is a multiple of 50, so
that nothing of it is truncated. -/
theorem setThenGetReturnsTheValueTruncatedToItsScale : Obligations.SetThenGetReturnsTheValueTruncatedToItsScale := by
  refine ⟨fun x between s t u v y => setOcp_then_getOcp,
    fun x between s t u v y => setDegrees_then_getDegrees (a := 0x24#8) (by decide),
    fun x between s t u v y => setDegrees_then_getDegrees (a := 0x25#8) (by decide),
    fun k x a between s t u v y => setNtc_then_getNtc, ?getSetGet⟩
  intro y z r s t u v hfirst hy hset hunit hrun hget hz
  rw [setOcp_then_getOcp hset hunit (List.forall_mem_nil _) hrun hget hz, getOcp_mod_fifty hfirst hy, Nat.sub_zero]

/-- Settles O32: a read at 0x20, which is no configuration register, so its byte is the drawn one. -/
theorem readVoltageGivesEightyMillivoltsAUnit : Obligations.ReadVoltageGivesEightyMillivoltsAUnit := by
  refine fun s => ⟨fun hok => ?read, fun hok => ?failed⟩
  case read =>
    rw [exec, execReadVoltage, snapshotRead_drawn_ok (by decide) hok]
    rfl
  case failed =>
    rw [exec, execReadVoltage, snapshotRead_fail _ _ _ _ s hok]
    rfl

/-- Settles O33: a read at 0x21; `currentOf` chooses between the scale and the free amount. -/
theorem readCurrentGivesTwentyFourMilliampsAUnit : Obligations.ReadCurrentGivesTwentyFourMilliampsAUnit := by
  refine fun s => ⟨fun hok => ?read, fun hok => ?failed⟩
  case read =>
    rw [exec, execReadCurrent, snapshotRead_drawn_ok (by decide) hok]
    rfl
  case failed =>
    rw [exec, execReadCurrent, snapshotRead_fail _ _ _ _ s hok]
    rfl

/-- Settles O34: a read at 0x22; the value by `signedByte_eq`, its range by `signedByte_bounds`. -/
theorem readTempGivesTheSignedByte : Obligations.ReadTempGivesTheSignedByte := by
  refine fun s => ⟨fun hok => ⟨signedByte s.draw.bytes[0], ?read, signedByte_eq _, signedByte_bounds _⟩,
    fun hok => ?failed⟩
  case read =>
    rw [exec, execReadTemp, snapshotRead_drawn_ok (by decide) hok]
    rfl
  case failed =>
    rw [exec, execReadTemp, snapshotRead_fail _ _ _ _ s hok]
    rfl

/-- Settles O35: the two values of each cell, and for the current the two shunts. -/
theorem lastMeasurementsConvertTheSnapshot : Obligations.LastMeasurementsConvertTheSnapshot := by
  refine fun s => ⟨fun b hsnap => ?voltage, fun hsnap => ?noVoltage, fun b hsnap hshunt => ?scaled,
    fun b hsnap hshunt => ?free, fun hsnap => ?noCurrent, fun b hsnap => ?temp, fun hsnap => ?noTemp⟩
  case voltage =>
    rw [exec, execGetLastVoltage, hsnap, needCell_some]
    rfl
  case noVoltage => rw [exec, execGetLastVoltage, hsnap, needCell_none]
  case scaled =>
    rw [exec, execGetLastCurrent, hsnap, needCell_some, hshunt]
    rfl
  case free =>
    rw [exec, execGetLastCurrent, hsnap, needCell_some, hshunt]
    rfl
  case noCurrent => rw [exec, execGetLastCurrent, hsnap, needCell_none]
  case temp =>
    rw [exec, execGetLastTemp, hsnap, needCell_some, signedByte_eq]
    rfl
  case noTemp => rw [exec, execGetLastTemp, hsnap, needCell_none]

/-- Settles O36: a bounded write of one byte at 0x23, the byte by `ocpRaw_toNat`. -/
theorem setOcpStoresTheFloorOfFiftieths : Obligations.SetOcpStoresTheFloorOfFiftieths := by
  intro mA s
  rw [exec_setOcp]
  exact boundedWrite_byte_outcomes ocpRaw_toNat

/-- Settles O37: a read at 0x23, which is a configuration register, so its byte is the known one where there is one. -/
theorem getOcpGivesFiftyMilliampsAUnit : Obligations.GetOcpGivesFiftyMilliampsAUnit :=
  fun s => ⟨fun hok => readThen_ret_config_ok (a := 0x23#8) (k := fun b => .milliAmp (ocpOf b)) (by decide) hok,
    fun hok => readThen_fail 0x23#8 1 _ _ s hok⟩

/-- Settles O38: either is a bounded write of one byte at its register. -/
theorem setTemperatureThresholdsStoreTheDegrees : Obligations.SetTemperatureThresholdsStoreTheDegrees := by
  intro op reg c s h
  obtain ⟨a, rfl, hexec⟩ := exec_setThreshold h
  rw [hexec, BitVec.ofNat_toNat, BitVec.setWidth_eq]
  exact boundedWrite_byte_outcomes byte_toNat

/-- Settles O39: the register of either threshold is a configuration register. -/
theorem getTemperatureThresholdsGiveTheDegrees : Obligations.GetTemperatureThresholdsGiveTheDegrees := by
  intro op reg s h
  obtain ⟨a, rfl, ha, hexec⟩ := exec_getThreshold h
  rw [hexec, BitVec.ofNat_toNat, BitVec.setWidth_eq]
  exact ⟨fun hok => readThen_ret_config_ok (k := fun b => .degrees (degreesOf b)) ha hok,
    fun hok => readThen_fail a 1 _ _ s hok⟩

/-- Settles O40: the point is looked up first; then the refusal and the two outcomes of a two-byte register write. -/
theorem setNtcStoresTheResistanceLittleEndian : Obligations.SetNtcStoresTheResistanceLittleEndian := by
  refine fun k ohm s => ⟨fun hk => exec_setNtc_no_point (ntcAddr_of_no_point hk) ohm s, fun reg hpoint => ?_⟩
  obtain ⟨haddr, hreg, -⟩ := ntcAddr_of_point (k, reg) hpoint
  rw [exec_setNtc haddr]
  refine ⟨boundedWrite_refused, fun hle hok => ?succeeded, fun hle hok => ?failed⟩
  case succeeded =>
    obtain ⟨m, hrun, hread⟩ := configWrite_pair_succeeded (ntcLow ohm) (ntcHigh ohm) hok
    rw [hreg] at hread
    exact ⟨m, _, _, ntcLow_toNat ohm, ntcHigh_toNat hle, (boundedWrite_sent hle).trans hrun, hread⟩
  case failed =>
    obtain ⟨m, hrun, hread⟩ := configWrite_pair_failed (ntcLow ohm) (ntcHigh ohm) hok
    rw [hreg] at hread
    exact ⟨m, _, _, ntcLow_toNat ohm, ntcHigh_toNat hle, (boundedWrite_sent hle).trans hrun, hread⟩

/-- Settles O41: the point is looked up first; both bytes of its register are configuration bytes. -/
theorem getNtcGivesTheResistance : Obligations.GetNtcGivesTheResistance := by
  refine fun k s => ⟨fun hk => exec_getNtc_no_point (ntcAddr_of_no_point hk) s, fun reg hpoint => ?_⟩
  obtain ⟨haddr, hreg, hconfig⟩ := ntcAddr_of_point (k, reg) hpoint
  rw [exec_getNtc haddr]
  refine ⟨fun hok => ?read, fun hok => readThen_fail _ 2 _ _ s hok⟩
  have hread := readThen_ret_config_pair_ok (a := BitVec.ofNat 8 reg) (k := fun lo hi => .ohm (le16 lo hi).toNat)
    (by rw [hreg]; exact hconfig 0 (by decide)) (by rw [hreg]; exact hconfig 1 (by decide)) hok
  rw [hreg, le16_toNat] at hread
  exact hread

end Sys2Proof.Machine
end

section
/-! PROOFS of 45_device_control.md: INIT is a list of configuration writes, whose outcome is said once for a list that
succeeds (`configWrites_succeeded`) and once for one that fails after any prefix (`configWrites_failed`). -/

namespace Sys2Proof.Machine

/-! ## The answers of the next transactions (10_state.md R55) -/

/-- The next transactions succeed or fail as listed. -/
def State.acks (s : State) : List Bool → Prop
  | [] => True
  | ok :: oks => s.draw.ok = ok ∧ s.afterDraw.acks oks

@[simp] theorem State.acks_log (s : State) (x : Transaction) (oks : List Bool) : (s.log x).acks oks ↔ s.acks oks := by
  induction oks generalizing s with
  | nil => rfl
  | cons ok oks ih => exact and_congr Iff.rfl (ih s.afterDraw)

@[simp] theorem State.acks_setDevice (s : State) (m : Memory) (oks : List Bool) :
    (s.setDevice m).acks oks ↔ s.acks oks := by
  induction oks generalizing s with
  | nil => rfl
  | cons ok oks ih => exact and_congr Iff.rfl (ih s.afterDraw)

/-! ## The memory after one-byte writes in order (20_memory.md R83) -/

/-- The memory with one byte after another known. -/
def Memory.writeAll (m : Memory) : List (RegAddr × Byte) → Memory
  | [] => m
  | (a, b) :: ws => Memory.writeAll (Memory.write m a.toNat b) ws

/-- What the writes leave at an address, else what was there. -/
theorem Memory.read_writeAll (ws : List (RegAddr × Byte)) (m : Memory) (x : Nat) :
    Memory.read (Memory.writeAll m ws) x = (Memory.read (Memory.writeAll [] ws) x).or (Memory.read m x) := by
  induction ws generalizing m with
  | nil => rfl
  | cons w ws ih =>
    obtain ⟨a, b⟩ := w
    rw [Memory.writeAll, Memory.writeAll, ih, ih (Memory.write [] a.toNat b), Option.or_assoc, Memory.read_write,
      Memory.read_write]
    split_ifs <;> rfl

/-- The byte listed at an address, else `y`. -/
def Memory.readElse (y : Option Byte) : Memory → Nat → Option Byte
  | [], _ => y
  | (k, b) :: m, x => if x = k then some b else Memory.readElse y m x

theorem Memory.read_or (m : Memory) (x : Nat) (y : Option Byte) : (Memory.read m x).or y = Memory.readElse y m x := by
  induction m with
  | nil => rfl
  | cons c m ih =>
    obtain ⟨k, b⟩ := c
    rw [Memory.read, Memory.readElse, ← ih]
    split_ifs <;> rfl

/-- A byte that the writes leave alone may as well be forgotten before them. -/
theorem Memory.read_forget_writeAll {ws : List (RegAddr × Byte)} {r : Nat}
    (hr : Memory.read (Memory.writeAll [] ws) r = none) (m : Memory) (x : Nat) :
    Memory.read (Memory.forget (Memory.writeAll m ws) r) x
      = Memory.readElse (if x = r then none else Memory.read m x) (Memory.writeAll [] ws) x := by
  rw [Memory.read_forget, Memory.read_writeAll, ← Memory.read_or]
  by_cases hx : x = r
  · rw [if_pos hx, if_pos hx, hx, hr, Option.none_or]
  · rw [if_neg hx, if_neg hx]

/-! ## A list of configuration writes (R401; 20_memory.md R82) -/

/-- The transactions of configuration writes that succeed. -/
def writesSucceeded (dev : BitVec 7) (ws : List (RegAddr × Byte)) : List Transaction :=
  ws.map fun w => .write dev w.1 [w.2] true

/-- The state after configuration writes that succeed. -/
def State.afterWrites (s : State) (ws : List (RegAddr × Byte)) : State :=
  { s with
    device := Memory.writeAll s.device ws
    tape := s.tape.drop ws.length
    drawn := s.drawn + ws.length
    bus := s.bus ++ writesSucceeded s.params.devAddr ws }

theorem State.afterWrites_nil (s : State) : s.afterWrites [] = s := by
  simp [State.afterWrites, Memory.writeAll, writesSucceeded]

theorem State.afterWrites_cons (s : State) (a : RegAddr) (b : Byte) (ws : List (RegAddr × Byte)) :
    s.afterWrites ((a, b) :: ws) = ((s.afterDraw.log (.write s.params.devAddr a [b] true)).setDevice
      (Memory.writeBytes s.device a.toNat [b])).afterWrites ws := by
  simp [State.afterWrites, Memory.writeAll, Memory.writeBytes, writesSucceeded, State.setDevice, State.log,
    State.afterDraw, Nat.add_comm 1, Nat.add_assoc]

/-- Writes that succeed leave the rest of the list, and of the answers, to the state after them. -/
theorem configWrites_append {ws rest : List (RegAddr × Byte)} {oks : List Bool} {s : State}
    (h : s.acks (List.replicate ws.length true ++ oks)) :
    configWrites (ws ++ rest) s = configWrites rest (s.afterWrites ws) ∧ (s.afterWrites ws).acks oks := by
  induction ws generalizing s with
  | nil =>
    rw [State.afterWrites_nil]
    exact ⟨rfl, h⟩
  | cons w ws ih =>
    obtain ⟨a, b⟩ := w
    obtain ⟨hok, hrest⟩ := h
    rw [List.cons_append, configWrites_cons_ok a b _ s hok, State.afterWrites_cons]
    exact ih (by rwa [State.acks_setDevice, State.acks_log])

theorem configWrites_succeeded {ws : List (RegAddr × Byte)} {s : State}
    (h : s.acks (List.replicate ws.length true)) :
    configWrites ws s = (s.afterWrites ws).ret .unit := by
  obtain ⟨hrun, -⟩ := configWrites_append (rest := []) (oks := []) (by rwa [List.append_nil])
  rwa [List.append_nil] at hrun

/-- The write after `ws` fails: what follows it is not issued, what precedes it is not undone (92_eei_decisions.md D17),
and its register is not known (D3). -/
theorem configWrites_failed {ws rest : List (RegAddr × Byte)} {a : RegAddr} {b : Byte} {s : State}
    (h : s.acks (List.replicate ws.length true ++ [false])) :
    configWrites (ws ++ (a, b) :: rest) s = .next { s with
      device := Memory.forget (Memory.writeAll s.device ws) a.toNat
      result := some (.err .transportFailure)
      tape := s.tape.drop (ws.length + 1)
      drawn := s.drawn + (ws.length + 1)
      bus := s.bus ++ (writesSucceeded s.params.devAddr ws ++ [.write s.params.devAddr a [b] false]) } := by
  obtain ⟨hrun, hfail, -⟩ := configWrites_append (rest := (a, b) :: rest) h
  rw [hrun, configWrites_cons_fail a b rest _ hfail, State.raise_eq, ← List.append_assoc, ← List.tail_drop]
  rfl

/-- Only a list of writes that all succeed answers unit. -/
theorem configWrites_answers_unit {ws : List (RegAddr × Byte)} {s t : State} (h : configWrites ws s = .next t)
    (hunit : t.result = some (.ok .unit)) : t.device = Memory.writeAll s.device ws := by
  induction ws generalizing s with
  | nil =>
    rw [configWrites_nil, State.ret_eq] at h
    cases h
    rfl
  | cons w ws ih =>
    obtain ⟨a, b⟩ := w
    cases hok : s.draw.ok with
    | true =>
      rw [configWrites_cons_ok a b ws s hok] at h
      exact ih h
    | false =>
      rw [configWrites_cons_fail a b ws s hok, State.raise_eq] at h
      cases h
      cases hunit

/-! ## The registers of INIT (R401) -/

theorem Memory.read_writeAll_initWrites (p : Params) (m : Memory) (x : Nat) :
    Memory.read (Memory.writeAll m (initWrites p)) x =
      if x = 0x1E then some p.maskInit else if x = 0x23 then some p.ocpInit
      else if x = 0x24 then some p.otpInit else if x = 0x25 then some p.drInit else Memory.read m x := by
  rw [Memory.read_writeAll, Memory.read_or]
  rfl

/-- INIT writes no NTC register (R402). -/
theorem writesTo_init_ntc {a : Nat} (hlow : 0x28 ≤ a) (hhigh : a ≤ 0x2F) : writesTo .init a = false := by
  interval_cases a <;> rfl

/-! ## The statements -/

/-- Settles O43: the probe's answer is the draw's, and it is the result (`State.probe_eq`). -/
theorem isPresentAnswersTheProbe : Obligations.IsPresentAnswersTheProbe := by
  intro s
  rw [exec, execIsPresent, State.probe_eq]
  rfl

/-- Settles O44: the list of writes succeeds, or fails after its first none, one, two or three; no two of its registers
are one, so a failure leaves the earlier bytes known. -/
theorem initWritesTheDefaultsUntilTheFirstFailure : Obligations.InitWritesTheDefaultsUntilTheFirstFailure := by
  refine fun s => ⟨fun h1 h2 h3 h4 => ?succeeded, fun h1 => ?mask, fun h1 h2 => ?ocp, fun h1 h2 h3 => ?otp,
    fun h1 h2 h3 h4 => ?dr⟩
  case succeeded =>
    exact ⟨_, configWrites_succeeded (ws := initWrites s.params) ⟨h1, h2, h3, h4, trivial⟩,
      Memory.read_writeAll_initWrites s.params s.device⟩
  case mask =>
    exact ⟨_, configWrites_failed (ws := []) ⟨h1, trivial⟩, Memory.read_forget_writeAll (ws := []) rfl s.device⟩
  case ocp =>
    exact ⟨_, configWrites_failed (ws := (initWrites s.params).take 1) ⟨h1, h2, trivial⟩,
      Memory.read_forget_writeAll rfl s.device⟩
  case otp =>
    exact ⟨_, configWrites_failed (ws := (initWrites s.params).take 2) ⟨h1, h2, h3, trivial⟩,
      Memory.read_forget_writeAll rfl s.device⟩
  case dr =>
    exact ⟨_, configWrites_failed (ws := (initWrites s.params).take 3) ⟨h1, h2, h3, h4, trivial⟩,
      Memory.read_forget_writeAll rfl s.device⟩

/-- Settles O45: INIT answered unit, so the device holds the whole list; it writes no NTC register. -/
theorem initLeavesTheDefaultConfiguration : Obligations.InitLeavesTheDefaultConfiguration := by
  intro s t hparams h hunit
  have hdevice : t.device = Memory.writeAll s.device (initWrites s.params) := configWrites_answers_unit h hunit
  have hread := Memory.read_writeAll_initWrites s.params s.device
  rw [← hdevice, hparams] at hread
  exact ⟨hread 0x1E, hread 0x23, hread 0x24, hread 0x25, fun a hlow hhigh =>
    registerWrites_read_eq (exec_effect h).device (writesTo_init_ntc hlow hhigh)⟩

end Sys2Proof.Machine
end

section
/-! PROOFS of 60_exceptions.md: how an operation may end (`Ends`, `exec_ends`). It returns a value, it fails at the
transport, it raises another error before any change, or it stops at an unwritten cell; the errors are those that its
rows of the error table list (`Raises`). -/

namespace Sys2Proof.Machine

/-! ## The table of errors (R421) and the ways to end (R420, R425, R429) -/

/-- The operation is in the row of the error (R421; 92_eei_decisions.md D21). -/
def Raises (i : Instr) : Err → Prop
  | .transportFailure => usesTransport i = true ∧ i ≠ .isPresent
  | .invalidPosition _ => (encode i).op ∈ [.getPdo, .writeRdo, .decodeRdo]
  | .variantMismatch _ => (encode i).op = .writeRdo
  | .argumentOutOfRange _ => (encode i).op ∈ [.setOcp, .setOtp, .setDr, .setNtc, .getNtc]

theorem errorCode_bounds (e : Err) : 1 ≤ errorCode e ∧ errorCode e ≤ 4 := by
  cases e <;> simp [errorCode]

/-- How the operation, begun in `s`, may end. A value or a failure of the transport may come after any changes; every
other error comes before the first one (R429). -/
inductive Ends (i : Instr) (s : State) : Host.Outcome State Fault Refusal → Prop where
  | returned {t : State} {v : Value} (ht : t.result = some (.ok v)) : Ends i s (.next t)
  | failed {t : State} (hi : Raises i .transportFailure) (ht : t.result = some (.err .transportFailure)) :
      Ends i s (.next t)
  | raised {e : Err} (hi : Raises i e) : Ends i s (.next (s.setResult (.err e)))
  | stopped {c : BlockCell} (hc : s.block.holds c = false) : Ends i s (.fault (.unwritten c))

/-! ## The end of each shared shape, begun in `s` and now in `u` -/

section Shapes

variable {i : Instr} {s u : State}

theorem Ends.of_ret {v : Value} : Ends i s (u.ret v) := .returned rfl

theorem Ends.of_raise {e : Err} (hi : Raises i e) : Ends i s (s.raise e) := .raised hi

theorem Ends.of_transportFailure (hi : Raises i .transportFailure) : Ends i s (u.raise .transportFailure) :=
  .failed hi rfl

/-- `x` holds a value exactly where the cell `c` does (R425). -/
theorem Ends.of_needCell {α : Type} {c : BlockCell} {x : Option α} {k : α → Host.Outcome State Fault Refusal}
    (hc : s.block.holds c = x.isSome) (hk : ∀ v, Ends i s (k v)) : Ends i s (needCell c x k) := by
  cases x with
  | none => exact .stopped hc
  | some v => exact hk v

theorem Ends.of_readThen {a : RegAddr} {n : Nat} {hn : n ≤ 28}
    {k : Vector Byte n → State → Host.Outcome State Fault Refusal} (hi : Raises i .transportFailure)
    (hk : ∀ b u, Ends i s (k b u)) : Ends i s (readThen a n hn k u) := by
  cases hok : u.draw.ok with
  | true =>
    rw [readThen_ok a n hn k u hok]
    exact hk _ _
  | false =>
    rw [readThen_fail a n hn k u hok]
    exact .of_transportFailure hi

theorem Ends.of_snapshotRead {a : RegAddr} {get : Block → Option Byte} {set : Block → Option Byte → Block}
    {k : Byte → Value} (hi : Raises i .transportFailure) : Ends i s (snapshotRead a get set k u) := by
  cases hok : u.draw.ok with
  | true =>
    rw [snapshotRead_ok a get set k u hok]
    exact .of_ret
  | false =>
    rw [snapshotRead_fail a get set k u hok]
    exact .of_transportFailure hi

theorem Ends.of_configWrite {a : RegAddr} {bs : List Byte} (hi : Raises i .transportFailure) :
    Ends i s (configWrite a bs u) := by
  cases hok : u.draw.ok with
  | true =>
    rw [configWrite_ok a bs u hok]
    exact .of_ret
  | false =>
    rw [configWrite_fail a bs u hok]
    exact .of_transportFailure hi

theorem Ends.of_configWrites {ws : List (RegAddr × Byte)} (hi : Raises i .transportFailure) :
    Ends i s (configWrites ws u) := by
  induction ws generalizing u with
  | nil => exact .of_ret
  | cons x rest ih =>
    obtain ⟨a, b⟩ := x
    cases hok : u.draw.ok with
    | true =>
      rw [configWrites_cons_ok a b rest u hok]
      exact ih
    | false =>
      rw [configWrites_cons_fail a b rest u hok]
      exact .of_transportFailure hi

theorem Ends.of_requestWrite {w : Word} (hi : Raises i .transportFailure) : Ends i s (requestWrite w u) := by
  cases hok : u.draw.ok with
  | true =>
    rw [requestWrite_ok w u hok]
    exact .of_ret
  | false =>
    rw [requestWrite_fail w u hok]
    exact .of_transportFailure hi

/-- A setter is refused before its transaction (R426). -/
theorem Ends.of_boundedWrite {limit x : Nat} {a : RegAddr} {bs : List Byte} (harg : Raises i (.argumentOutOfRange x))
    (hi : Raises i .transportFailure) : Ends i s (boundedWrite limit x a bs s) := by
  unfold boundedWrite
  split
  · exact .of_raise harg
  · exact .of_configWrite hi

end Shapes

/-! ## The end of each operation with checks of its own -/

section Operations

variable {i : Instr} {s : State}

theorem Ends.of_returnRdo {k : RdoKind} {w : Word} (hi : Raises i (.invalidPosition 0)) :
    Ends i s (returnRdo k w s) := by
  unfold returnRdo
  split
  · exact .of_ret
  · exact .of_raise hi

/-- The index, then the count, then the slot (R423, R430). -/
theorem Ends.of_execGetPdo (p : Nat) : Ends (.getPdo p) s (execGetPdo p s) := by
  have hposition : Raises (.getPdo p) (.invalidPosition p) := by simp [Raises, encode]
  unfold execGetPdo
  split
  · exact .of_raise hposition
  · refine .of_needCell rfl fun n => ?_
    split
    · exact .of_raise hposition
    · exact .of_needCell rfl fun w => .of_ret

/-- The count, then the slot, then its variant, and only then the transaction (R423, R424). -/
theorem Ends.of_execWriteRdo (r : Rdo) : Ends (.writeRdo r) s (execWriteRdo r s) := by
  unfold execWriteRdo
  refine .of_needCell rfl fun n => ?_
  dsimp only
  split
  · exact .of_raise (by simp [Raises, encode])
  · refine .of_needCell rfl fun w => ?_
    split
    · exact .of_requestWrite ⟨rfl, nofun⟩
    · exact .of_raise rfl

/-- The point, then the resistance, and only then the transaction (R426). -/
theorem Ends.of_exec_setNtc (k ohm : Nat) : Ends (.setNtc k ohm) s (exec (.setNtc k ohm) s) := by
  cases ha : ntcAddr k with
  | none =>
    rw [exec_setNtc_no_point ha]
    exact .of_raise (by simp [Raises, encode])
  | some a =>
    rw [exec_setNtc ha]
    exact .of_boundedWrite (by simp [Raises, encode]) ⟨rfl, nofun⟩

theorem Ends.of_exec_getNtc (k : Nat) : Ends (.getNtc k) s (exec (.getNtc k) s) := by
  cases ha : ntcAddr k with
  | none =>
    rw [exec_getNtc_no_point ha]
    exact .of_raise (by simp [Raises, encode])
  | some a =>
    rw [exec_getNtc ha]
    exact .of_readThen ⟨rfl, nofun⟩ fun _ _ => .of_ret

end Operations

/-- Every operation ends in one of the four ways (R420). -/
theorem exec_ends (i : Instr) (s : State) : Ends i s (exec i s) := by
  cases i with
  | decodePdoFixed w | decodePdoBattery w | decodePdoVariable w | decodePdoPps w | decodePdoEprAvs w
  | decodePdoOpaque w | encodeRdoFixed r | encodeRdoBattery r | encodeRdoPps r | encodeRdoAvs r | checkRdo p r
  | decodeStatus b | isPresent | pollInt => exact .of_ret
  | decodeRdoFixed w | decodeRdoBattery w | decodeRdoPps w | decodeRdoAvs w =>
    exact .of_returnRdo (by simp [Raises, encode])
  | getPdoCnt | getLastRdo | getStatus | getLastVoltage | getLastCurrent | getLastTemp =>
    exact .of_needCell rfl fun _ => .of_ret
  | getPdo p => exact .of_execGetPdo p
  | refreshPdos => exact .of_readThen ⟨rfl, nofun⟩ fun _ _ => .of_readThen ⟨rfl, nofun⟩ fun _ _ => .of_ret
  | writeRdo r => exact .of_execWriteRdo r
  | resetRdo => exact .of_requestWrite ⟨rfl, nofun⟩
  | readStatus | readVoltage | readCurrent | readTemp =>
    rw [exec]
    exact .of_snapshotRead ⟨rfl, nofun⟩
  | getMask | getOcp | getOtp | getDr => exact .of_readThen ⟨rfl, nofun⟩ fun _ _ => .of_ret
  | setMask m => exact .of_configWrite ⟨rfl, nofun⟩
  | init => exact .of_configWrites ⟨rfl, nofun⟩
  | setOcp x | setOtp x | setDr x => exact .of_boundedWrite (by simp [Raises, encode]) ⟨rfl, nofun⟩
  | setNtc k ohm => exact .of_exec_setNtc k ohm
  | getNtc k => exact .of_exec_getNtc k

/-- An operation that answers with an error is in the error's row, and has changed nothing else unless the transport
failed (R421, R429). -/
theorem exec_raised {i : Instr} {s t : State} {e : Err} (h : exec i s = .next t) (ht : t.result = some (.err e)) :
    Raises i e ∧ (e ≠ .transportFailure → t = s.setResult (.err e)) := by
  have hends := exec_ends i s
  rw [h] at hends
  cases hends with
  | returned hv =>
    rw [hv] at ht
    cases ht
  | failed hi hfail =>
    rw [hfail] at ht
    cases ht
    exact ⟨hi, fun hne => absurd rfl hne⟩
  | raised hi =>
    cases ht
    exact ⟨hi, fun _ => rfl⟩

/-! ## The statements -/

/-- Settles O49: of the four ways to end, none is a refusal by name and one is a fault. -/
theorem onlyUnwrittenCellsStopAnOperation : Obligations.OnlyUnwrittenCellsStopAnOperation := by
  intro i s
  have hends := exec_ends i s
  constructor
  · intro r h
    rw [h] at hends
    cases hends
  · intro f h
    rw [h] at hends
    cases hends with
    | stopped hc => exact ⟨_, rfl, hc⟩

/-- Settles O55, by `exec_raised`. -/
theorem refusedCallsChangeNothing : Obligations.RefusedCallsChangeNothing := by
  intro i s t e h ht hne
  obtain ⟨-, hkept⟩ := exec_raised h ht
  exact hkept hne

/-- Settles O56: the error's row is the one its code selects. -/
theorem eachErrorIsRaisedOnlyByItsOperations : Obligations.EachErrorIsRaisedOnlyByItsOperations := by
  intro i s t e h ht
  obtain ⟨hrow, -⟩ := exec_raised h ht
  obtain ⟨hlow, hhigh⟩ := errorCode_bounds e
  refine ⟨hlow, hhigh, ?_⟩
  cases e with
  | transportFailure => exact ⟨fun _ => hrow, nofun, nofun, nofun⟩
  | invalidPosition p => exact ⟨nofun, fun _ => hrow, nofun, nofun⟩
  | variantMismatch p => exact ⟨nofun, nofun, fun _ => hrow, nofun⟩
  | argumentOutOfRange x => exact ⟨nofun, nofun, nofun, fun _ => hrow⟩

end Sys2Proof.Machine
end

section
/-! PROOFS of 70_reset_and_hazards.md: a step without an operation to run, and the machine after its bring-up: a cell
that holds a value always holds one, so where every cell does no operation stops. -/

namespace Sys2Proof.Machine

/-! ## A step without an operation (R460, 30_encoding.md R138) -/

theorem step_of_no_call {s : State} (h : s.fetch = none) : step s = .next s := by
  rw [step, h]

theorem step_of_malformed_call {s : State} {c : Call} {e : CallError} (hfetch : s.fetch = some c)
    (hdecode : decode s.params.layout c = .error e) : step s = .refused (.malformedCall e) := by
  simp only [step, hfetch, hdecode]

/-! ## A cell that holds a value keeps holding one (10_state.md R36, R39, R40) -/

/-- A table commit fills slots 1..7 and the count, and keeps every other cell. -/
theorem Block.holds_setTable {b : Block} {c : BlockCell} (h : b.holds c = true) (t : Vector Byte 28) (n : Fin 8) :
    (b.setTable t n).holds c = true := by
  cases c with
  | slot k =>
    cases k using Fin.cases with
    | zero => exact h
    | succ k => exact congrArg Option.isSome (Block.setTable_slot_succ b t n k)
  | pdoCount => rfl
  | statusSnap | vSnap | iSnap | tSnap => exact h

/-- A request word fills slot 0 and keeps every other cell. -/
theorem Block.holds_setLastRdo {b : Block} {c : BlockCell} (h : b.holds c = true) (w : Word) :
    (b.setLastRdo (some w)).holds c = true := by
  cases c with
  | slot k =>
    cases k using Fin.cases with
    | zero => exact congrArg Option.isSome (Vector.getElem_set_self (by omega))
    | succ k =>
      have hother : (b.setLastRdo (some w)).slot[k.val + 1] = b.slot[k.val + 1] :=
        Vector.getElem_set_ne (by omega) (by omega) (by omega)
      exact (congrArg Option.isSome hother).trans h
  | pdoCount | statusSnap | vSnap | iSnap | tSnap => exact h

/-- No update of the block empties a cell: each one sets its own cells to values. -/
theorem BlockChange.holds {i : Instr} {b b' : Block} {c : BlockCell} (h : BlockChange i b b')
    (hc : b.holds c = true) : b'.holds c = true := by
  cases h with
  | kept => exact hc
  | table _ t n => exact Block.holds_setTable hc t n
  | request _ _ w | resetRequest _ w => exact Block.holds_setLastRdo hc w
  | status =>
    cases c with
    | statusSnap => rfl
    | slot | pdoCount | vSnap | iSnap | tSnap => exact hc
  | voltage =>
    cases c with
    | vSnap => rfl
    | slot | pdoCount | statusSnap | iSnap | tSnap => exact hc
  | current =>
    cases c with
    | iSnap => rfl
    | slot | pdoCount | statusSnap | vSnap | tSnap => exact hc
  | temp =>
    cases c with
    | tSnap => rfl
    | slot | pdoCount | statusSnap | vSnap | iSnap => exact hc

/-! ## After the bring-up (R462) -/

/-- The bring-up is done exactly when there is no cell left that holds `none`. -/
theorem Block.filled_iff (b : Block) : b.filled = true ↔ ∀ c, b.holds c = true := by
  have hslots : b.slot.toList.all Option.isSome = true ↔ ∀ k : Fin 8, b.slot[k.val].isSome = true := by
    simp [Fin.forall_iff]
  simp only [Block.filled, Bool.and_eq_true, hslots]
  constructor
  · rintro ⟨⟨⟨⟨⟨hslot, hcount⟩, hstatus⟩, hvoltage⟩, hcurrent⟩, htemp⟩ c
    cases c with
    | slot k => exact hslot k
    | pdoCount => exact hcount
    | statusSnap => exact hstatus
    | vSnap => exact hvoltage
    | iSnap => exact hcurrent
    | tSnap => exact htemp
  · intro h
    exact ⟨⟨⟨⟨⟨fun k => h (.slot k), h .pdoCount⟩, h .statusSnap⟩, h .vSnap⟩, h .iSnap⟩, h .tSnap⟩

theorem exec_of_filled {s : State} (hs : s.block.filled = true) (i : Instr) :
    ∃ t, exec i s = .next t ∧ t.block.filled = true := by
  rw [Block.filled_iff] at hs
  obtain ⟨hnotRefused, hunwritten⟩ := onlyUnwrittenCellsStopAnOperation i s
  cases hexec : exec i s with
  | next t => exact ⟨t, rfl, (Block.filled_iff _).mpr fun c => (exec_effect hexec).block.holds (hs c)⟩
  | fault f =>
    obtain ⟨c, -, hempty⟩ := hunwritten f hexec
    simp [hs c] at hempty
  | refused r => exact absurd hexec (hnotRefused r)

theorem runOps_cons_of_next {i : Instr} {s t : State} (h : exec i s = .next t) (rest : List Instr) :
    runOps (i :: rest) s = runOps rest t := by
  rw [runOps, h]

/-! ## The statements -/

/-- Settles O50, by induction on the operations: each one completes and leaves a filled block to the rest. -/
theorem broughtUpBlockNeverStops : Obligations.BroughtUpBlockNeverStops := by
  intro ops
  induction ops with
  | nil => exact fun s hs => ⟨s, rfl, hs⟩
  | cons i rest ih =>
    intro s hs
    obtain ⟨u, hexec, hu⟩ := exec_of_filled hs i
    rw [runOps_cons_of_next hexec]
    exact ih u hu

/-- Settles O6: the call at the index is what a step fetches. -/
theorem stepWaitsOrRefusesWithoutAnOperation : Obligations.StepWaitsOrRefusesWithoutAnOperation := fun _ =>
  ⟨step_of_no_call, fun _ _ => step_of_malformed_call⟩

end Sys2Proof.Machine
end
